-- ==== Sys2Proof/Word.lean ====
section
/-!
DEFINITION. The words of CORE (00_scope.md R7): bytes, 16-bit addresses and the 64-bit cycle count.
-/

namespace Sys2Proof

/-- A u8: a register, an operand byte, a byte of memory (R7). -/
abbrev Byte := BitVec 8

/-- A u16: the program counter and every bus address (R7, 20_memory.md R51). -/
abbrev Addr := BitVec 16

/-- A u64: the cycle counter (R7, 10_state.md R31). Its addition wraps modulo 2^64 (92 D5). -/
abbrev Cycles := BitVec 64

end Sys2Proof
end

