-- ==== Sys2Proof/Config.lean ====
section
/-!
DEFINITION. What the spec leaves open: the free answers of an open bus, the base cycles an empty
decode entry holds, and what a byte of memory that no state lists reads as.
-/

namespace Sys2Proof

/-- One access on the bus port, with the byte that crossed it (20_memory.md R50, R56). -/
inductive BusAccess where
  | read (addr : Addr) (value : Byte)
  | write (addr : Addr) (value : Byte)
  deriving DecidableEq, Repr

/-- FREE VALUE. The answer of an open bus to a read at `addr`, a draw that may depend on the whole
history of bus accesses, newest first (20_memory.md R52; the OPEN parameter BUS, 92 D7). It has no
body: whatever is proved holds for every bus. Log entry 3. -/
opaque Config.busDraw (history : List BusAccess) (addr : Addr) : Byte

/-- FREE VALUE. By how much the base cycles that the empty entry at `op` holds exceed 2: an entry's are
2 to 7 (00_scope.md R7, 30_encoding.md R81) and the spec gives no number for an empty one. It has no
body, and no rule reads it. Log entry 9. -/
opaque Config.emptyEntryCycles (op : Byte) : Fin 6

/-- DESIGN CHOICE (log entry 1), unsafe. The byte that an address a state's memory does not list
reads as. The spec leaves the content of unwritten bytes OPEN (`FLAT_INIT`, 20_memory.md R62,
92 D22): every content is some state's memory list, so what is proved of every state holds for
every `FLAT_INIT`; only `State.reset`, whose list is empty, holds the choice. -/
def Config.unlistedByte : Byte := 0x00

end Sys2Proof
end

