-- ==== Sys2Proof/Machine/State.lean ====
section
/-!
DEFINITION. The state of the machine: CORE's registers (10_state.md R20), the bus behind its port
(20_memory.md R50, R52, R62), and the record of faults (60_exceptions.md R241). Plain data.
-/

namespace Sys2Proof.Machine

/-- The memory of a flat-memory bus (20_memory.md R62): the bytes that differ from
`Config.unlistedByte`, in one canonical form (`Memory.wf`, Machine/Ops.lean). -/
abbrev Memory := List Host.Cell

/-- The bus behind the port, the OPEN parameter `BUS` (20_memory.md R52, 92 D7). -/
inductive BusKind where
  /-- The flat-memory bus of R62: a read returns the last byte written. -/
  | flat
  /-- Any bus: each answer is a draw that may depend on the whole history (R52). -/
  | openBus
  deriving DecidableEq, Repr

/-- Everything the spec gives the machine. -/
structure State where
  /-- A, the accumulator (R21). -/
  a : Byte
  /-- X, an index register (R22). -/
  x : Byte
  /-- Y, an index register (R23). -/
  y : Byte
  /-- S, the stack pointer (R28). -/
  sp : Byte
  /-- P, the status register; bits 0 to 7 are C, Z, I, D, B, U, V, N (R24). -/
  p : Byte
  /-- PC, the program counter (R29). -/
  pc : Addr
  /-- The cycle counter (R31). -/
  cycles : Cycles
  /-- `currentPageCrossPenalty` (R30). -/
  cpcp : Bool
  /-- Which bus stands behind the port (20_memory.md R52, R62). -/
  busKind : BusKind
  /-- The bus's memory, if it is flat (20_memory.md R62). -/
  mem : Memory
  /-- The history of bus accesses, newest first (20_memory.md R52, R56). -/
  trace : List BusAccess
  /-- The opcode bytes of the `UnimplementedOpcode` faults raised so far, newest first
  (60_exceptions.md R241; "the fault stays recorded", 92 D23). -/
  faults : List Byte
  deriving DecidableEq, Repr

/-- Why a step ends in a fault. -/
inductive Fault where
  /-- Raised by `step` when the opcode byte selects an empty entry (60_exceptions.md R240). `after` is
  the state of R240, from which the host may go on (R244). Safe: the model stops where silicon runs
  an instruction (92 D4). -/
  | unimplementedOpcode (op : Byte) (after : State)
  deriving DecidableEq, Repr

/-- Why a step is refused. -/
inductive Refusal where
  /-- An instruction that has no meaning in the model; no arm of `exec` raises it. Safe. -/
  | notModelled (mnemonic : String)
  deriving DecidableEq, Repr

/-- The machine right after `reset()` (10_state.md R35, 70_reset_and_hazards.md R270), over a
flat-memory bus whose memory lists nothing (log entries 1 to 4). PC is the reset vector read from
that memory; the history holds Reset's two reads, $FFFD before $FFFC. -/
def State.reset : State where
  a := 0x00
  x := 0x00
  y := 0x00
  sp := 0xFD
  p := 0x20
  pc := 0x0000
  cycles := 0
  cpcp := false
  busKind := .flat
  mem := []
  trace := [.read 0xFFFC 0x00, .read 0xFFFD 0x00]
  faults := []

end Sys2Proof.Machine
end

