-- ==== Sys2Proof/Machine/Flags.lean ====
section
/-!
DEFINITION. The status-flag unit over P (10_state.md R24, R32, R33) and the flag computations of ADC
and SBC (42_arithmetic.md R180, R181). Exact integers first, narrowed at the end.
-/

namespace Sys2Proof.Machine

/-- C, bit 0 of P (R24). -/
def flagC : Byte := 0x01
/-- Z, bit 1 of P. -/
def flagZ : Byte := 0x02
/-- I, bit 2 of P: storage only (R26). -/
def flagI : Byte := 0x04
/-- D, bit 3 of P: storage only (R25). -/
def flagD : Byte := 0x08
/-- B, bit 4 of P: storage only (R26). -/
def flagB : Byte := 0x10
/-- U, bit 5 of P: an ordinary stored bit (R27). -/
def flagU : Byte := 0x20
/-- V, bit 6 of P. -/
def flagV : Byte := 0x40
/-- N, bit 7 of P. -/
def flagN : Byte := 0x80

/-- `set(mask)` (R32). -/
def setMask (mask p : Byte) : Byte := p ||| mask

/-- `clear(mask)` (R32). -/
def clearMask (mask p : Byte) : Byte := p &&& ~~~mask

/-- `isSet(mask)`: all bits of the mask are set (R32). -/
def isSet (mask p : Byte) : Bool := (p &&& mask) == mask

/-- Write one flag to 0 or 1. -/
def putFlag (mask : Byte) (b : Bool) (p : Byte) : Byte :=
  if b then setMask mask p else clearMask mask p

/-- `SetZN(v)` (R33). -/
def setZN (v p : Byte) : Byte :=
  let p1 := clearMask 0x82 p
  let p2 := if v = 0x00 then setMask flagZ p1 else p1
  if v.getLsbD 7 then setMask flagN p2 else p2

/-- ADC's exact sum, 0 to 0x1FF (R180). -/
def adcSum (a v : Byte) (carry : Bool) : Nat := a.toNat + v.toNat + carry.toNat

/-- ADC's result, the sum's low byte. -/
def adcResult (a v : Byte) (carry : Bool) : Byte := BitVec.ofNat 8 (adcSum a v carry)

/-- P after ADC (R180): C, Z, V and N, each written. -/
def adcFlags (a v p : Byte) : Byte :=
  let carry := isSet flagC p
  let r := adcResult a v carry
  let p1 := putFlag flagC (decide (0xFF < adcSum a v carry)) p
  let p2 := putFlag flagZ (r == 0x00) p1
  let p3 := putFlag flagV (!(a ^^^ v).getLsbD 7 && (a ^^^ r).getLsbD 7) p2
  putFlag flagN (r.getLsbD 7) p3

/-- SBC's exact difference, −256 to 255 (R181); the borrow is the inverted carry. -/
def sbcDiff (a v : Byte) (carry : Bool) : Int := (a.toNat : Int) - v.toNat - (!carry).toNat

/-- SBC's result, the difference's low byte. -/
def sbcResult (a v : Byte) (carry : Bool) : Byte := BitVec.ofInt 8 (sbcDiff a v carry)

/-- P after SBC (R181): C is set exactly when no borrow occurred (90 C3). -/
def sbcFlags (a v p : Byte) : Byte :=
  let carry := isSet flagC p
  let r := sbcResult a v carry
  let p1 := putFlag flagC (decide (0 ≤ sbcDiff a v carry)) p
  let p2 := putFlag flagZ (r == 0x00) p1
  let p3 := putFlag flagV ((a ^^^ v).getLsbD 7 && (a ^^^ r).getLsbD 7) p2
  putFlag flagN (r.getLsbD 7) p3

end Sys2Proof.Machine
end

