-- ==== Sys2Proof/Syntax.lean ====
section
/-!
DEFINITION. The instructions of CORE: one constructor of `Instr` per row of spec/opcode_table.json
(30_encoding.md R83), with its operand as R71 and R72 assemble it; the names of the handlers and of
the address resolvers; and the decode entry of R81.
-/

namespace Sys2Proof

/-- The 14 instruction handlers, one per mnemonic (00_scope.md R3, 30_encoding.md R81). -/
inductive Handler where
  | lda | ldx | ldy | sta | stx | sty | adc | sbc | inc | dec | inx | iny | dex | dey
  deriving DecidableEq, Repr

/-- The twelve address resolvers (40_engine_addressing.md R110). No opcode uses `ind` or `rel`
(30_encoding.md R83). -/
inductive Resolver where
  | imp | imm | zpg | zpgx | zpgy | abs | absx | absy | ind | indx | indy | rel
  deriving DecidableEq, Repr

/-- The operand bytes that follow the opcode (30_encoding.md R71). -/
def Resolver.operandBytes : Resolver → Nat
  | .imp => 0
  | .imm | .zpg | .zpgx | .zpgy | .indx | .indy | .rel => 1
  | .abs | .absx | .absy | .ind => 2

/-- A decode entry (30_encoding.md R81). The label is not modelled (92 D21). An entry whose handlers
are null has `none` for both. -/
structure DecodeEntry where
  /-- `instructionHandler`. -/
  handler : Option Handler
  /-- `addressingModeHandler`. -/
  resolver : Option Resolver
  /-- `baseCycles`. -/
  baseCycles : Nat
  /-- `pageCrossPenaltyHonored`. -/
  penalty : Bool
  deriving DecidableEq, Repr

/-- The empty (null) entry at an opcode byte (30_encoding.md R84): both handlers null; the penalty flag
has its default (R81); the base cycles are some number from 2 to 7 (R81), a FREE VALUE (log entry 9). -/
def DecodeEntry.empty (op : Byte) : DecodeEntry :=
  ⟨none, none, 2 + (Config.emptyEntryCycles op).val, true⟩

/-- The 59 instructions. A zero-page, immediate or pointer operand is the byte `zp` or `imm`; an
absolute operand is the word `base`, assembled low byte first (30_encoding.md R72). -/
inductive Instr where
  /-- LDA immediate, opcode 0xA9 (R140). -/
  | ldaImm (imm : Byte)
  /-- LDA zero page, opcode 0xA5 (R141). -/
  | ldaZpg (zp : Byte)
  /-- LDA zero page,X, opcode 0xB5 (R142). -/
  | ldaZpgx (zp : Byte)
  /-- LDA absolute, opcode 0xAD (R143). -/
  | ldaAbs (base : Addr)
  /-- LDA absolute,X, opcode 0xBD (R144). -/
  | ldaAbsx (base : Addr)
  /-- LDA absolute,Y, opcode 0xB9 (R145). -/
  | ldaAbsy (base : Addr)
  /-- LDA (indirect,X), opcode 0xA1 (R146). -/
  | ldaIndx (zp : Byte)
  /-- LDA (indirect),Y, opcode 0xB1 (R147). -/
  | ldaIndy (zp : Byte)
  /-- LDX immediate, opcode 0xA2 (R148). -/
  | ldxImm (imm : Byte)
  /-- LDX zero page, opcode 0xA6 (R149). -/
  | ldxZpg (zp : Byte)
  /-- LDX zero page,Y, opcode 0xB6 (R150). -/
  | ldxZpgy (zp : Byte)
  /-- LDX absolute, opcode 0xAE (R151). -/
  | ldxAbs (base : Addr)
  /-- LDX absolute,Y, opcode 0xBE (R152). -/
  | ldxAbsy (base : Addr)
  /-- LDY immediate, opcode 0xA0 (R153). -/
  | ldyImm (imm : Byte)
  /-- LDY zero page, opcode 0xA4 (R154). -/
  | ldyZpg (zp : Byte)
  /-- LDY zero page,X, opcode 0xB4 (R155). -/
  | ldyZpgx (zp : Byte)
  /-- LDY absolute, opcode 0xAC (R156). -/
  | ldyAbs (base : Addr)
  /-- LDY absolute,X, opcode 0xBC (R157). -/
  | ldyAbsx (base : Addr)
  /-- STA zero page, opcode 0x85 (R158). -/
  | staZpg (zp : Byte)
  /-- STA zero page,X, opcode 0x95 (R159). -/
  | staZpgx (zp : Byte)
  /-- STA absolute, opcode 0x8D (R160). -/
  | staAbs (base : Addr)
  /-- STA absolute,X, opcode 0x9D (R161). -/
  | staAbsx (base : Addr)
  /-- STA absolute,Y, opcode 0x99 (R162). -/
  | staAbsy (base : Addr)
  /-- STA (indirect,X), opcode 0x81 (R163). -/
  | staIndx (zp : Byte)
  /-- STA (indirect),Y, opcode 0x91 (R164). -/
  | staIndy (zp : Byte)
  /-- STX zero page, opcode 0x86 (R165). -/
  | stxZpg (zp : Byte)
  /-- STX zero page,Y, opcode 0x96 (R166). -/
  | stxZpgy (zp : Byte)
  /-- STX absolute, opcode 0x8E (R167). -/
  | stxAbs (base : Addr)
  /-- STY zero page, opcode 0x84 (R168). -/
  | styZpg (zp : Byte)
  /-- STY zero page,X, opcode 0x94 (R169). -/
  | styZpgx (zp : Byte)
  /-- STY absolute, opcode 0x8C (R170). -/
  | styAbs (base : Addr)
  /-- ADC immediate, opcode 0x69 (R185). -/
  | adcImm (imm : Byte)
  /-- ADC zero page, opcode 0x65 (R186). -/
  | adcZpg (zp : Byte)
  /-- ADC zero page,X, opcode 0x75 (R187). -/
  | adcZpgx (zp : Byte)
  /-- ADC absolute, opcode 0x6D (R188). -/
  | adcAbs (base : Addr)
  /-- ADC absolute,X, opcode 0x7D (R189). -/
  | adcAbsx (base : Addr)
  /-- ADC absolute,Y, opcode 0x79 (R190). -/
  | adcAbsy (base : Addr)
  /-- ADC (indirect,X), opcode 0x61 (R191). -/
  | adcIndx (zp : Byte)
  /-- ADC (indirect),Y, opcode 0x71 (R192). -/
  | adcIndy (zp : Byte)
  /-- SBC immediate, opcode 0xE9 (R193). -/
  | sbcImm (imm : Byte)
  /-- SBC zero page, opcode 0xE5 (R194). -/
  | sbcZpg (zp : Byte)
  /-- SBC zero page,X, opcode 0xF5 (R195). -/
  | sbcZpgx (zp : Byte)
  /-- SBC absolute, opcode 0xED (R196). -/
  | sbcAbs (base : Addr)
  /-- SBC absolute,X, opcode 0xFD (R197). -/
  | sbcAbsx (base : Addr)
  /-- SBC absolute,Y, opcode 0xF9 (R198). -/
  | sbcAbsy (base : Addr)
  /-- SBC (indirect,X), opcode 0xE1 (R199). -/
  | sbcIndx (zp : Byte)
  /-- SBC (indirect),Y, opcode 0xF1 (R200). -/
  | sbcIndy (zp : Byte)
  /-- INC zero page, opcode 0xE6 (R220). -/
  | incZpg (zp : Byte)
  /-- INC zero page,X, opcode 0xF6 (R221). -/
  | incZpgx (zp : Byte)
  /-- INC absolute, opcode 0xEE (R222). -/
  | incAbs (base : Addr)
  /-- INC absolute,X, opcode 0xFE (R223). -/
  | incAbsx (base : Addr)
  /-- DEC zero page, opcode 0xC6 (R224). -/
  | decZpg (zp : Byte)
  /-- DEC zero page,X, opcode 0xD6 (R225). -/
  | decZpgx (zp : Byte)
  /-- DEC absolute, opcode 0xCE (R226). -/
  | decAbs (base : Addr)
  /-- DEC absolute,X, opcode 0xDE (R227). -/
  | decAbsx (base : Addr)
  /-- INX implied, opcode 0xE8 (R228). -/
  | inx
  /-- INY implied, opcode 0xC8 (R229). -/
  | iny
  /-- DEX implied, opcode 0xCA (R230). -/
  | dex
  /-- DEY implied, opcode 0x88 (R231). -/
  | dey
  deriving DecidableEq, Repr

end Sys2Proof
end

