-- ==== Sys2Proof/WellFormed.lean ====
section
/-!
DEFINITION. What a well-formed decode entry, instruction and instruction image are.

Every value of an operand byte is legal (30_encoding.md R85) and an `Instr` holds its operand as a
bit vector of the operand's own width, so no term of `Instr` is ill formed. What can be ill formed is
an entry of the decode table (R81: "given a well-formed decode entry", 40_engine_addressing.md R103)
and a list of bytes taken for one instruction (R71).
-/

namespace Sys2Proof

/-- The handlers that take no operand and ignore the address (43_inc_dec.md R212–R215). -/
def Handler.isImplied : Handler → Bool
  | .inx | .iny | .dex | .dey => true
  | .lda | .ldx | .ldy | .sta | .stx | .sty | .adc | .sbc | .inc | .dec => false

/-- The handlers that write the byte at the effective address (40_engine_addressing.md R102). -/
def Handler.writesMemory : Handler → Bool
  | .sta | .stx | .sty | .inc | .dec => true
  | .lda | .ldx | .ldy | .adc | .sbc | .inx | .iny | .dex | .dey => false

/-- Both handlers are null or neither is (R81, R100). -/
def DecodeEntry.bothOrNeither (e : DecodeEntry) : Bool := e.handler.isSome == e.resolver.isSome

/-- The base cycles of an entry, empty or not, are an integer from 2 to 7 (R81, 00_scope.md R7). -/
def DecodeEntry.cyclesInRange (e : DecodeEntry) : Bool := 2 ≤ e.baseCycles && e.baseCycles ≤ 7

/-- The penalty flag is false for every store and every INC/DEC opcode, and true for every other
implemented opcode (R82). -/
def DecodeEntry.penaltyAsRuled (e : DecodeEntry) : Bool :=
  match e.handler with
  | none => true
  | some h => e.penalty == !h.writesMemory

/-- A handler without operand goes with IMP, and only such a handler does (R71, R83). -/
def DecodeEntry.impliedAgrees (e : DecodeEntry) : Bool :=
  match e.handler, e.resolver with
  | some h, some r => h.isImplied == (r == .imp)
  | _, _ => true

/-- A handler that writes memory never goes with IMM (R83). -/
def DecodeEntry.noImmediateStore (e : DecodeEntry) : Bool :=
  match e.handler, e.resolver with
  | some h, some .imm => !h.writesMemory
  | _, _ => true

/-- A well-formed decode entry (40_engine_addressing.md R103). -/
def DecodeEntry.wellFormed (e : DecodeEntry) : Bool :=
  e.bothOrNeither && e.cyclesInRange && e.penaltyAsRuled && e.impliedAgrees && e.noImmediateStore

/-- Every instruction is well formed: "every value of an operand byte is legal" (R85). -/
def Instr.wellFormed (_i : Instr) : Bool := true

/-- A list of bytes has the length of one instruction in the format of `r` (R71). -/
def imageFits (r : Resolver) (bytes : List Byte) : Bool := bytes.length == 1 + r.operandBytes

end Sys2Proof
end

