-- ==== Sys2Proof/Decode.lean ====
section
/-!
DEFINITION. The decode table (30_encoding.md R80–R84), the decoder from bytes, and the encoder.

The opcode bytes are R83's: five are the source's own, the other 54 the standard NMOS 6502 map that
the spec supplies (92 D16; log entry 5).
-/

namespace Sys2Proof

/-- `hi:lo` (00_scope.md section 4): every 16-bit value is little-endian (20_memory.md R54). -/
def concat (hi lo : Byte) : Addr := hi ++ lo

/-- The low byte of a word. -/
def loByte (w : Addr) : Byte := w.extractLsb' 0 8

/-- The high byte of a word. -/
def hiByte (w : Addr) : Byte := w.extractLsb' 8 8

/-- How the operand bytes become the instruction (30_encoding.md R71, R72): none, one byte, or a word
of two bytes, low byte first. -/
inductive Shape where
  | implied (i : Instr)
  | byteOperand (f : Byte → Instr)
  | wordOperand (f : Addr → Instr)

/-- The number of operand bytes of a shape (30_encoding.md R71). -/
def Shape.operandBytes : Shape → Nat
  | .implied _ => 0
  | .byteOperand _ => 1
  | .wordOperand _ => 2

/-- One row of the table of R83. -/
structure Row where
  opcode : Byte
  handler : Handler
  resolver : Resolver
  baseCycles : Nat
  penalty : Bool
  shape : Shape

/-- The rows of LDA, LDX, LDY (30_encoding.md R83). -/
def loadRows : List Row := [
  ⟨0xA9, .lda, .imm, 2, true, (.byteOperand .ldaImm)⟩,
  ⟨0xA5, .lda, .zpg, 3, true, (.byteOperand .ldaZpg)⟩,
  ⟨0xB5, .lda, .zpgx, 4, true, (.byteOperand .ldaZpgx)⟩,
  ⟨0xAD, .lda, .abs, 4, true, (.wordOperand .ldaAbs)⟩,
  ⟨0xBD, .lda, .absx, 4, true, (.wordOperand .ldaAbsx)⟩,
  ⟨0xB9, .lda, .absy, 4, true, (.wordOperand .ldaAbsy)⟩,
  ⟨0xA1, .lda, .indx, 6, true, (.byteOperand .ldaIndx)⟩,
  ⟨0xB1, .lda, .indy, 5, true, (.byteOperand .ldaIndy)⟩,
  ⟨0xA2, .ldx, .imm, 2, true, (.byteOperand .ldxImm)⟩,
  ⟨0xA6, .ldx, .zpg, 3, true, (.byteOperand .ldxZpg)⟩,
  ⟨0xB6, .ldx, .zpgy, 4, true, (.byteOperand .ldxZpgy)⟩,
  ⟨0xAE, .ldx, .abs, 4, true, (.wordOperand .ldxAbs)⟩,
  ⟨0xBE, .ldx, .absy, 4, true, (.wordOperand .ldxAbsy)⟩,
  ⟨0xA0, .ldy, .imm, 2, true, (.byteOperand .ldyImm)⟩,
  ⟨0xA4, .ldy, .zpg, 3, true, (.byteOperand .ldyZpg)⟩,
  ⟨0xB4, .ldy, .zpgx, 4, true, (.byteOperand .ldyZpgx)⟩,
  ⟨0xAC, .ldy, .abs, 4, true, (.wordOperand .ldyAbs)⟩,
  ⟨0xBC, .ldy, .absx, 4, true, (.wordOperand .ldyAbsx)⟩]

/-- The rows of STA, STX, STY (30_encoding.md R83). -/
def storeRows : List Row := [
  ⟨0x85, .sta, .zpg, 3, false, (.byteOperand .staZpg)⟩,
  ⟨0x95, .sta, .zpgx, 4, false, (.byteOperand .staZpgx)⟩,
  ⟨0x8D, .sta, .abs, 4, false, (.wordOperand .staAbs)⟩,
  ⟨0x9D, .sta, .absx, 5, false, (.wordOperand .staAbsx)⟩,
  ⟨0x99, .sta, .absy, 5, false, (.wordOperand .staAbsy)⟩,
  ⟨0x81, .sta, .indx, 6, false, (.byteOperand .staIndx)⟩,
  ⟨0x91, .sta, .indy, 6, false, (.byteOperand .staIndy)⟩,
  ⟨0x86, .stx, .zpg, 3, false, (.byteOperand .stxZpg)⟩,
  ⟨0x96, .stx, .zpgy, 4, false, (.byteOperand .stxZpgy)⟩,
  ⟨0x8E, .stx, .abs, 4, false, (.wordOperand .stxAbs)⟩,
  ⟨0x84, .sty, .zpg, 3, false, (.byteOperand .styZpg)⟩,
  ⟨0x94, .sty, .zpgx, 4, false, (.byteOperand .styZpgx)⟩,
  ⟨0x8C, .sty, .abs, 4, false, (.wordOperand .styAbs)⟩]

/-- The rows of ADC, SBC (30_encoding.md R83). -/
def arithmeticRows : List Row := [
  ⟨0x69, .adc, .imm, 2, true, (.byteOperand .adcImm)⟩,
  ⟨0x65, .adc, .zpg, 3, true, (.byteOperand .adcZpg)⟩,
  ⟨0x75, .adc, .zpgx, 4, true, (.byteOperand .adcZpgx)⟩,
  ⟨0x6D, .adc, .abs, 4, true, (.wordOperand .adcAbs)⟩,
  ⟨0x7D, .adc, .absx, 4, true, (.wordOperand .adcAbsx)⟩,
  ⟨0x79, .adc, .absy, 4, true, (.wordOperand .adcAbsy)⟩,
  ⟨0x61, .adc, .indx, 6, true, (.byteOperand .adcIndx)⟩,
  ⟨0x71, .adc, .indy, 5, true, (.byteOperand .adcIndy)⟩,
  ⟨0xE9, .sbc, .imm, 2, true, (.byteOperand .sbcImm)⟩,
  ⟨0xE5, .sbc, .zpg, 3, true, (.byteOperand .sbcZpg)⟩,
  ⟨0xF5, .sbc, .zpgx, 4, true, (.byteOperand .sbcZpgx)⟩,
  ⟨0xED, .sbc, .abs, 4, true, (.wordOperand .sbcAbs)⟩,
  ⟨0xFD, .sbc, .absx, 4, true, (.wordOperand .sbcAbsx)⟩,
  ⟨0xF9, .sbc, .absy, 4, true, (.wordOperand .sbcAbsy)⟩,
  ⟨0xE1, .sbc, .indx, 6, true, (.byteOperand .sbcIndx)⟩,
  ⟨0xF1, .sbc, .indy, 5, true, (.byteOperand .sbcIndy)⟩]

/-- The rows of INC, DEC, INX, INY, DEX, DEY (30_encoding.md R83). -/
def incDecRows : List Row := [
  ⟨0xE6, .inc, .zpg, 5, false, (.byteOperand .incZpg)⟩,
  ⟨0xF6, .inc, .zpgx, 6, false, (.byteOperand .incZpgx)⟩,
  ⟨0xEE, .inc, .abs, 6, false, (.wordOperand .incAbs)⟩,
  ⟨0xFE, .inc, .absx, 7, false, (.wordOperand .incAbsx)⟩,
  ⟨0xC6, .dec, .zpg, 5, false, (.byteOperand .decZpg)⟩,
  ⟨0xD6, .dec, .zpgx, 6, false, (.byteOperand .decZpgx)⟩,
  ⟨0xCE, .dec, .abs, 6, false, (.wordOperand .decAbs)⟩,
  ⟨0xDE, .dec, .absx, 7, false, (.wordOperand .decAbsx)⟩,
  ⟨0xE8, .inx, .imp, 2, true, (.implied .inx)⟩,
  ⟨0xC8, .iny, .imp, 2, true, (.implied .iny)⟩,
  ⟨0xCA, .dex, .imp, 2, true, (.implied .dex)⟩,
  ⟨0x88, .dey, .imp, 2, true, (.implied .dey)⟩]

/-- The 59 implemented entries (R83). -/
def rows : List Row := loadRows ++ storeRows ++ arithmeticRows ++ incDecRows

/-- The row that an opcode byte selects, or none for an empty entry (R84). The opcode byte alone
selects it (R70). -/
def lookup (op : Byte) : Option Row := rows.find? (fun r => r.opcode == op)

/-- The decode entry of a row. -/
def Row.entry (r : Row) : DecodeEntry := ⟨some r.handler, some r.resolver, r.baseCycles, r.penalty⟩

/-- The decode table, a constant function from u8 to entries (R80). -/
def decodeTable (op : Byte) : DecodeEntry :=
  match lookup op with
  | some r => r.entry
  | none => .empty op

/-- Why the decoder refuses a list of bytes. -/
inductive DecodeError where
  /-- There is no byte. -/
  | noOpcode
  /-- The opcode byte selects an empty entry (R84). -/
  | unimplementedOpcode (op : Byte)
  /-- The opcode's operand bytes are not all there. -/
  | missingOperand (op : Byte)
  deriving DecidableEq, Repr

/-- The instruction that a row's shape and the bytes after the opcode give, with the rest (R71). -/
def takeOperand (op : Byte) : Shape → List Byte → Except DecodeError (Instr × List Byte)
  | .implied i, rest => .ok (i, rest)
  | .byteOperand f, b :: rest => .ok (f b, rest)
  | .wordOperand f, lo :: hi :: rest => .ok (f (concat hi lo), rest)
  | .byteOperand _, [] => .error (.missingOperand op)
  | .wordOperand _, [] => .error (.missingOperand op)
  | .wordOperand _, [_] => .error (.missingOperand op)

/-- Decode the first instruction of a list of bytes: its instruction and the rest, or the reason
there is none (R70, R71, R84). -/
def decode : List Byte → Except DecodeError (Instr × List Byte)
  | [] => .error .noOpcode
  | op :: rest =>
    match lookup op with
    | none => .error (.unimplementedOpcode op)
    | some r => takeOperand op r.shape rest

/-- The bytes of an instruction, opcode first, a word's low byte before its high byte (R71, R83). -/
def encode : Instr → List Byte
  | .ldaImm imm => [0xA9, imm]
  | .ldaZpg zp => [0xA5, zp]
  | .ldaZpgx zp => [0xB5, zp]
  | .ldaAbs base => [0xAD, loByte base, hiByte base]
  | .ldaAbsx base => [0xBD, loByte base, hiByte base]
  | .ldaAbsy base => [0xB9, loByte base, hiByte base]
  | .ldaIndx zp => [0xA1, zp]
  | .ldaIndy zp => [0xB1, zp]
  | .ldxImm imm => [0xA2, imm]
  | .ldxZpg zp => [0xA6, zp]
  | .ldxZpgy zp => [0xB6, zp]
  | .ldxAbs base => [0xAE, loByte base, hiByte base]
  | .ldxAbsy base => [0xBE, loByte base, hiByte base]
  | .ldyImm imm => [0xA0, imm]
  | .ldyZpg zp => [0xA4, zp]
  | .ldyZpgx zp => [0xB4, zp]
  | .ldyAbs base => [0xAC, loByte base, hiByte base]
  | .ldyAbsx base => [0xBC, loByte base, hiByte base]
  | .staZpg zp => [0x85, zp]
  | .staZpgx zp => [0x95, zp]
  | .staAbs base => [0x8D, loByte base, hiByte base]
  | .staAbsx base => [0x9D, loByte base, hiByte base]
  | .staAbsy base => [0x99, loByte base, hiByte base]
  | .staIndx zp => [0x81, zp]
  | .staIndy zp => [0x91, zp]
  | .stxZpg zp => [0x86, zp]
  | .stxZpgy zp => [0x96, zp]
  | .stxAbs base => [0x8E, loByte base, hiByte base]
  | .styZpg zp => [0x84, zp]
  | .styZpgx zp => [0x94, zp]
  | .styAbs base => [0x8C, loByte base, hiByte base]
  | .adcImm imm => [0x69, imm]
  | .adcZpg zp => [0x65, zp]
  | .adcZpgx zp => [0x75, zp]
  | .adcAbs base => [0x6D, loByte base, hiByte base]
  | .adcAbsx base => [0x7D, loByte base, hiByte base]
  | .adcAbsy base => [0x79, loByte base, hiByte base]
  | .adcIndx zp => [0x61, zp]
  | .adcIndy zp => [0x71, zp]
  | .sbcImm imm => [0xE9, imm]
  | .sbcZpg zp => [0xE5, zp]
  | .sbcZpgx zp => [0xF5, zp]
  | .sbcAbs base => [0xED, loByte base, hiByte base]
  | .sbcAbsx base => [0xFD, loByte base, hiByte base]
  | .sbcAbsy base => [0xF9, loByte base, hiByte base]
  | .sbcIndx zp => [0xE1, zp]
  | .sbcIndy zp => [0xF1, zp]
  | .incZpg zp => [0xE6, zp]
  | .incZpgx zp => [0xF6, zp]
  | .incAbs base => [0xEE, loByte base, hiByte base]
  | .incAbsx base => [0xFE, loByte base, hiByte base]
  | .decZpg zp => [0xC6, zp]
  | .decZpgx zp => [0xD6, zp]
  | .decAbs base => [0xCE, loByte base, hiByte base]
  | .decAbsx base => [0xDE, loByte base, hiByte base]
  | .inx => [0xE8]
  | .iny => [0xC8]
  | .dex => [0xCA]
  | .dey => [0x88]

/-- The three bytes of an instruction numbered as spec/opcode_table.json numbers its bits: the first
byte is bits 7..0, the next bits 15..8, the last bits 23..16, and every bit above `nbits` is 0. -/
def tableBytes (nbits w : Nat) : List Byte :=
  let v := w % 2 ^ nbits
  [BitVec.ofNat 8 v, BitVec.ofNat 8 (v / 256), BitVec.ofNat 8 (v / 65536)]

/-- The instruction the decoder reads from a table word, none where it refuses. -/
def decodeTableWord (nbits w : Nat) : Option Instr :=
  match decode (tableBytes nbits w) with
  | .ok (i, _) => some i
  | .error _ => none

end Sys2Proof
end

