-- ==== Sys2Proof/Machine/Ops.lean ====
section
/-!
DEFINITION. The named operations over memory, registers and the bus port, the raising of
`UnimplementedOpcode`, construction and Reset.
-/

namespace Sys2Proof.Machine

/-! ### Memory of the flat bus (20_memory.md R62) -/

/-- The byte at an address. -/
def Memory.read : Memory → Nat → Byte
  | [], _ => Config.unlistedByte
  | (k, v) :: rest, addr => if k = addr then v else Memory.read rest addr

/-- The memory without any cell at an address. -/
def Memory.erase : Memory → Nat → Memory
  | [], _ => []
  | (k, v) :: rest, addr => if k = addr then Memory.erase rest addr else (k, v) :: Memory.erase rest addr

/-- A cell put in before the first cell at a higher address. -/
def Memory.insert : Memory → Nat → Byte → Memory
  | [], addr, v => [(addr, v)]
  | (k, u) :: rest, addr, v =>
    if addr < k then (addr, v) :: (k, u) :: rest else (k, u) :: Memory.insert rest addr v

/-- Write a byte, keeping the canonical form: writing what an unlisted address reads as removes the
cell. -/
def Memory.write (m : Memory) (addr : Nat) (v : Byte) : Memory :=
  if v = Config.unlistedByte then m.erase addr else (m.erase addr).insert addr v

/-- Every address of the list is at least `lo`, the addresses strictly rise and stay inside the
space of 65,536 locations (20_memory.md R51), and no byte is what an unlisted address reads as. -/
def Memory.wfFrom : Nat → Memory → Bool
  | _, [] => true
  | lo, (k, v) :: rest =>
    decide (lo ≤ k) && decide (k < 65536) && decide (v ≠ Config.unlistedByte) && Memory.wfFrom (k + 1) rest

/-- The canonical form. -/
def Memory.wf (m : Memory) : Bool := Memory.wfFrom 0 m

/-! ### Registers: each written by one operation, which is also the host's setter (10_state.md R42) -/

/-- Write the whole of `a` (10_state.md R21). -/
def State.setA (s : State) (v : Byte) : State := { s with a := v }

/-- Write the whole of `x` (10_state.md R22). -/
def State.setX (s : State) (v : Byte) : State := { s with x := v }

/-- Write the whole of `y` (10_state.md R23). -/
def State.setY (s : State) (v : Byte) : State := { s with y := v }

/-- Write the whole of `sp` (10_state.md R28). -/
def State.setSp (s : State) (v : Byte) : State := { s with sp := v }

/-- Write the whole of `p` (10_state.md R24). -/
def State.setP (s : State) (v : Byte) : State := { s with p := v }

/-- Write the whole of `pc` (10_state.md R29). -/
def State.setPc (s : State) (v : Addr) : State := { s with pc := v }

/-- Write the whole of `cycles` (10_state.md R31). -/
def State.setCycles (s : State) (v : Cycles) : State := { s with cycles := v }

/-- Write the whole of `cpcp` (10_state.md R30). -/
def State.setCpcp (s : State) (v : Bool) : State := { s with cpcp := v }

/-- `PC++`: PC ← (PC + 1) mod 2^16 (00_scope.md section 4). -/
def State.advancePc (s : State) : State := s.setPc (s.pc + 1)

/-- cycles ← (cycles + n) mod 2^64 (40_engine_addressing.md R100 step 7, R124). -/
def State.addCycles (s : State) (n : Nat) : State := s.setCycles (s.cycles + BitVec.ofNat 64 n)

/-! ### The bus port (20_memory.md R50) -/

/-- The byte the bus answers to a read at `addr` in this state (R52, R62). -/
def State.busByte (s : State) (addr : Addr) : Byte :=
  match s.busKind with
  | .flat => s.mem.read addr.toNat
  | .openBus => Config.busDraw s.trace addr

/-- The state after a read at `addr`: the access joins the history; nothing else changes. -/
def State.afterRead (s : State) (addr : Addr) : State :=
  { s with trace := .read addr (s.busByte addr) :: s.trace }

/-- `MemRead(addr, 1)`: one read on the port (00_scope.md section 4). -/
def State.busRead (s : State) (addr : Addr) : Byte × State := (s.busByte addr, s.afterRead addr)

/-- The memory after a write: a flat bus holds the byte (R62); what an open bus does with it shows
only in its later answers (R52). -/
def State.memAfterWrite (s : State) (addr : Addr) (v : Byte) : Memory :=
  match s.busKind with
  | .flat => s.mem.write addr.toNat v
  | .openBus => s.mem

/-- `MemWrite(addr, 1, v)`: one write on the port. -/
def State.busWrite (s : State) (addr : Addr) (v : Byte) : State :=
  { s with mem := s.memAfterWrite addr v, trace := .write addr v :: s.trace }

/-- Read the byte at PC and advance PC past it: `b <- MemRead(PC, 1); PC++`. -/
def State.fetchByte (s : State) : Byte × State :=
  let r := s.busRead s.pc
  (r.1, r.2.advancePc)

/-- `FetchOperand16`: the two bytes at PC, the low byte first (40_engine_addressing.md R116). -/
def State.fetchWord (s : State) : Addr × State :=
  let lo := s.fetchByte
  let hi := lo.2.fetchByte
  (concat hi.1 lo.1, hi.2)

/-! ### The one exception, construction and Reset -/

/-- `UnimplementedOpcode(op)` is recorded (60_exceptions.md R240, R241). CORE has no trap entry: the
fetch has advanced PC; cycles, A, X, Y, S, P and cpcp stay, nothing is saved, no vector is read
(R244). There is no return from it: the host's next Tick simply fetches at PC. -/
def State.recordFault (s : State) (op : Byte) : State := { s with faults := op :: s.faults }

/-- `new(bus)`: CORE over a bus, with the registers of the OPEN parameter `POWER_ON_STATE`
(10_state.md R36, 92 D15); cpcp is false (92 D14); no fault is recorded yet. -/
def construct (a x y sp p : Byte) (pc : Addr) (cycles : Cycles) (busKind : BusKind) (mem : Memory)
    (trace : List BusAccess) : State where
  a := a
  x := x
  y := y
  sp := sp
  p := p
  pc := pc
  cycles := cycles
  cpcp := false
  busKind := busKind
  mem := mem
  trace := trace
  faults := []

/-- `reset()` (70_reset_and_hazards.md R270): the registers, then the two reads of the vector, the
high byte at $FFFD first. It writes no memory and leaves cpcp alone (R271). -/
def resetCore (s : State) : State :=
  let s1 := (((((s.setA 0x00).setX 0x00).setY 0x00).setSp 0xFD).setP 0x20).setCycles 0
  let hi := s1.busRead 0xFFFD
  let lo := hi.2.busRead 0xFFFC
  lo.2.setPc (concat hi.1 lo.1)

end Sys2Proof.Machine
end

