-- ==== Sys2Proof/Machine/Operands.lean ====
section
/-!
DEFINITION. The operand forms: for each addressing mode the effective address from the operand and
the state; the twelve address resolvers of the spec, which read their operand at PC
(40_engine_addressing.md R110–R124); and the frame that every opcode rule shares, steps 4 to 7 of
R100.
-/

namespace Sys2Proof.Machine

/-- `zext_16` of a byte (00_scope.md section 4). -/
def zext16 (b : Byte) : Addr := b.zeroExtend 16

/-- `sext_16` of a byte (00_scope.md section 4). -/
def sext16 (b : Byte) : Addr := b.signExtend 16

/-- The page of an address: its high byte, as `addr & 0xFF00` (00_scope.md Glossary). -/
def page (addr : Addr) : Addr := addr &&& 0xFF00

/-- `PageCross(base, ea)` (R124): one cycle if the entry honours the penalty and the page changes. -/
def pageCross (base ea : Addr) (s : State) : State :=
  if s.cpcp = true ∧ page ea ≠ page base then s.addCycles 1 else s

/-- ZPG (R113). -/
def eaZpg (zp : Byte) (s : State) : Addr × State := (zext16 zp, s)

/-- ZPGX (R114): the sum wraps inside the zero page. -/
def eaZpgx (zp : Byte) (s : State) : Addr × State := (zext16 (zp + s.x), s)

/-- ZPGY (R115). -/
def eaZpgy (zp : Byte) (s : State) : Addr × State := (zext16 (zp + s.y), s)

/-- ABS (R117). -/
def eaAbs (base : Addr) (s : State) : Addr × State := (base, s)

/-- Absolute indexing by `index` (R118, R119): modulo 2^16, with the page-cross test. -/
def eaIndexed (base : Addr) (index : Byte) (s : State) : Addr × State :=
  let ea := base + zext16 index
  (ea, pageCross base ea s)

/-- ABSX (R118). -/
def eaAbsx (base : Addr) (s : State) : Addr × State := eaIndexed base s.x s

/-- ABSY (R119). -/
def eaAbsy (base : Addr) (s : State) : Addr × State := eaIndexed base s.y s

/-- The word at zero-page address `z`: the low byte at `z`, then the high byte at `(z + 1) mod 2^8`
(R121, R122). -/
def readPointer (z : Byte) (s : State) : Addr × State :=
  let lo := s.busRead (zext16 z)
  let hi := lo.2.busRead (zext16 (z + 1))
  (concat hi.1 lo.1, hi.2)

/-- INDX (R121). -/
def eaIndx (zp : Byte) (s : State) : Addr × State := readPointer (zp + s.x) s

/-- INDY (R122). -/
def eaIndy (zp : Byte) (s : State) : Addr × State :=
  let base := readPointer zp s
  eaIndexed base.1 s.y base.2

/-- IND (R120), with the page-wrap quirk: the high byte comes from the pointer's own page. -/
def eaInd (ptr : Addr) (s : State) : Addr × State :=
  let lo := s.busRead ptr
  let hi := lo.2.busRead ((ptr &&& 0xFF00) ||| ((ptr + 1) &&& 0x00FF))
  (concat hi.1 lo.1, hi.2)

/-- An address resolver reads its operand bytes at PC, advances PC past them and returns the
effective address (R110–R123). IMP's 0x0000 is never used (R111). IMM reads nothing itself (R112).
REL sums before it advances PC (R123). -/
def resolve : Resolver → State → Addr × State
  | .imp, s => (0x0000, s)
  | .imm, s => (s.pc, s.advancePc)
  | .zpg, s => let b := s.fetchByte; eaZpg b.1 b.2
  | .zpgx, s => let b := s.fetchByte; eaZpgx b.1 b.2
  | .zpgy, s => let b := s.fetchByte; eaZpgy b.1 b.2
  | .abs, s => let base := s.fetchWord; eaAbs base.1 base.2
  | .absx, s => let base := s.fetchWord; eaAbsx base.1 base.2
  | .absy, s => let base := s.fetchWord; eaAbsy base.1 base.2
  | .ind, s => let ptr := s.fetchWord; eaInd ptr.1 ptr.2
  | .indx, s => let b := s.fetchByte; eaIndx b.1 b.2
  | .indy, s => let b := s.fetchByte; eaIndy b.1 b.2
  | .rel, s => let b := s.busRead s.pc; (s.pc + sext16 b.1, b.2.advancePc)

/-- Steps 4 to 7 of R100 for one opcode: the penalty policy, the resolver, the handler at the
effective address, the base cycles. -/
def perform (penalty : Bool) (resolver : State → Addr × State) (handler : Addr → State → State)
    (baseCycles : Nat) (s : State) : State :=
  let ea := resolver (s.setCpcp penalty)
  (handler ea.1 ea.2).addCycles baseCycles

/-- The same for an opcode whose data operand is the immediate byte, which the fetch of the
instruction has read at its effective address (R112), and for one that takes no operand (R111): the
address plays no part. -/
def performDirect (penalty : Bool) (effect : State → State) (baseCycles : Nat) (s : State) : State :=
  (effect (s.setCpcp penalty)).addCycles baseCycles

end Sys2Proof.Machine
end

