-- ==== Sys2Proof/Machine/Arithmetic.lean ====
section
/-!
DEFINITION. ADC and SBC (42_arithmetic.md R180–R200). P.D is read nowhere (R183).
-/

namespace Sys2Proof.Machine

/-- ADC of the byte v (R180): the flags are computed from the old A. -/
def adcValue (v : Byte) (s : State) : State :=
  (s.setA (adcResult s.a v (isSet flagC s.p))).setP (adcFlags s.a v s.p)

/-- SBC of the byte v (R181). -/
def sbcValue (v : Byte) (s : State) : State :=
  (s.setA (sbcResult s.a v (isSet flagC s.p))).setP (sbcFlags s.a v s.p)

/-- The ADC handler (R180). -/
def adc (ea : Addr) (s : State) : State := let v := s.busRead ea; adcValue v.1 v.2

/-- The SBC handler (R181). -/
def sbc (ea : Addr) (s : State) : State := let v := s.busRead ea; sbcValue v.1 v.2

/-- ADC immediate, opcode 0x69 (R185). -/
def execAdcImm (imm : Byte) (s : State) : Host.Outcome State Fault Refusal :=
  .next (performDirect true (adcValue imm) 2 s)

/-- ADC zero page, opcode 0x65 (R186). -/
def execAdcZpg (zp : Byte) (s : State) : Host.Outcome State Fault Refusal :=
  .next (perform true (eaZpg zp) adc 3 s)

/-- ADC zero page,X, opcode 0x75 (R187). -/
def execAdcZpgx (zp : Byte) (s : State) : Host.Outcome State Fault Refusal :=
  .next (perform true (eaZpgx zp) adc 4 s)

/-- ADC absolute, opcode 0x6D (R188). -/
def execAdcAbs (base : Addr) (s : State) : Host.Outcome State Fault Refusal :=
  .next (perform true (eaAbs base) adc 4 s)

/-- ADC absolute,X, opcode 0x7D (R189). -/
def execAdcAbsx (base : Addr) (s : State) : Host.Outcome State Fault Refusal :=
  .next (perform true (eaAbsx base) adc 4 s)

/-- ADC absolute,Y, opcode 0x79 (R190). -/
def execAdcAbsy (base : Addr) (s : State) : Host.Outcome State Fault Refusal :=
  .next (perform true (eaAbsy base) adc 4 s)

/-- ADC (indirect,X), opcode 0x61 (R191). -/
def execAdcIndx (zp : Byte) (s : State) : Host.Outcome State Fault Refusal :=
  .next (perform true (eaIndx zp) adc 6 s)

/-- ADC (indirect),Y, opcode 0x71 (R192). -/
def execAdcIndy (zp : Byte) (s : State) : Host.Outcome State Fault Refusal :=
  .next (perform true (eaIndy zp) adc 5 s)

/-- SBC immediate, opcode 0xE9 (R193). -/
def execSbcImm (imm : Byte) (s : State) : Host.Outcome State Fault Refusal :=
  .next (performDirect true (sbcValue imm) 2 s)

/-- SBC zero page, opcode 0xE5 (R194). -/
def execSbcZpg (zp : Byte) (s : State) : Host.Outcome State Fault Refusal :=
  .next (perform true (eaZpg zp) sbc 3 s)

/-- SBC zero page,X, opcode 0xF5 (R195). -/
def execSbcZpgx (zp : Byte) (s : State) : Host.Outcome State Fault Refusal :=
  .next (perform true (eaZpgx zp) sbc 4 s)

/-- SBC absolute, opcode 0xED (R196). -/
def execSbcAbs (base : Addr) (s : State) : Host.Outcome State Fault Refusal :=
  .next (perform true (eaAbs base) sbc 4 s)

/-- SBC absolute,X, opcode 0xFD (R197). -/
def execSbcAbsx (base : Addr) (s : State) : Host.Outcome State Fault Refusal :=
  .next (perform true (eaAbsx base) sbc 4 s)

/-- SBC absolute,Y, opcode 0xF9 (R198). -/
def execSbcAbsy (base : Addr) (s : State) : Host.Outcome State Fault Refusal :=
  .next (perform true (eaAbsy base) sbc 4 s)

/-- SBC (indirect,X), opcode 0xE1 (R199). -/
def execSbcIndx (zp : Byte) (s : State) : Host.Outcome State Fault Refusal :=
  .next (perform true (eaIndx zp) sbc 6 s)

/-- SBC (indirect),Y, opcode 0xF1 (R200). -/
def execSbcIndy (zp : Byte) (s : State) : Host.Outcome State Fault Refusal :=
  .next (perform true (eaIndy zp) sbc 5 s)

end Sys2Proof.Machine
end

