-- ==== Sys2Proof/Machine/IncDec.lean ====
section
/-!
DEFINITION. INC, DEC, INX, INY, DEX, DEY (43_inc_dec.md R210–R231). None of them touches C or V.
-/

namespace Sys2Proof.Machine

/-- Write the result of a read-modify-write: SetZN(r), then the byte (R210, R211). -/
def modifyWith (ea : Addr) (r : Byte) (s : State) : State := (s.setP (setZN r s.p)).busWrite ea r

/-- The INC handler (R210): exactly one read and one write at the effective address. -/
def inc (ea : Addr) (s : State) : State := let v := s.busRead ea; modifyWith ea (v.1 + 1) v.2

/-- The DEC handler (R211). -/
def dec (ea : Addr) (s : State) : State := let v := s.busRead ea; modifyWith ea (v.1 - 1) v.2

/-- The INX handler (R212). -/
def inx (s : State) : State := (s.setX (s.x + 1)).setP (setZN (s.x + 1) s.p)

/-- The INY handler (R213). -/
def iny (s : State) : State := (s.setY (s.y + 1)).setP (setZN (s.y + 1) s.p)

/-- The DEX handler (R214). -/
def dex (s : State) : State := (s.setX (s.x - 1)).setP (setZN (s.x - 1) s.p)

/-- The DEY handler (R215). -/
def dey (s : State) : State := (s.setY (s.y - 1)).setP (setZN (s.y - 1) s.p)

/-- INC zero page, opcode 0xE6 (R220). -/
def execIncZpg (zp : Byte) (s : State) : Host.Outcome State Fault Refusal :=
  .next (perform false (eaZpg zp) inc 5 s)

/-- INC zero page,X, opcode 0xF6 (R221). -/
def execIncZpgx (zp : Byte) (s : State) : Host.Outcome State Fault Refusal :=
  .next (perform false (eaZpgx zp) inc 6 s)

/-- INC absolute, opcode 0xEE (R222). -/
def execIncAbs (base : Addr) (s : State) : Host.Outcome State Fault Refusal :=
  .next (perform false (eaAbs base) inc 6 s)

/-- INC absolute,X, opcode 0xFE (R223). -/
def execIncAbsx (base : Addr) (s : State) : Host.Outcome State Fault Refusal :=
  .next (perform false (eaAbsx base) inc 7 s)

/-- DEC zero page, opcode 0xC6 (R224). -/
def execDecZpg (zp : Byte) (s : State) : Host.Outcome State Fault Refusal :=
  .next (perform false (eaZpg zp) dec 5 s)

/-- DEC zero page,X, opcode 0xD6 (R225). -/
def execDecZpgx (zp : Byte) (s : State) : Host.Outcome State Fault Refusal :=
  .next (perform false (eaZpgx zp) dec 6 s)

/-- DEC absolute, opcode 0xCE (R226). -/
def execDecAbs (base : Addr) (s : State) : Host.Outcome State Fault Refusal :=
  .next (perform false (eaAbs base) dec 6 s)

/-- DEC absolute,X, opcode 0xDE (R227). -/
def execDecAbsx (base : Addr) (s : State) : Host.Outcome State Fault Refusal :=
  .next (perform false (eaAbsx base) dec 7 s)

/-- INX implied, opcode 0xE8 (R228). -/
def execInx (s : State) : Host.Outcome State Fault Refusal :=
  .next (performDirect true inx 2 s)

/-- INY implied, opcode 0xC8 (R229). -/
def execIny (s : State) : Host.Outcome State Fault Refusal :=
  .next (performDirect true iny 2 s)

/-- DEX implied, opcode 0xCA (R230). -/
def execDex (s : State) : Host.Outcome State Fault Refusal :=
  .next (performDirect true dex 2 s)

/-- DEY implied, opcode 0x88 (R231). -/
def execDey (s : State) : Host.Outcome State Fault Refusal :=
  .next (performDirect true dey 2 s)

end Sys2Proof.Machine
end

