-- ==== Sys2Proof/Machine/Loads.lean ====
section
/-!
DEFINITION. The loads LDA, LDX, LDY (41_load_store.md R130–R132, R140–R157).
-/

namespace Sys2Proof.Machine

/-- A ← v; SetZN(A) (R130). -/
def ldaValue (v : Byte) (s : State) : State := (s.setA v).setP (setZN v s.p)

/-- X ← v; SetZN(X) (R131). -/
def ldxValue (v : Byte) (s : State) : State := (s.setX v).setP (setZN v s.p)

/-- Y ← v; SetZN(Y) (R132). -/
def ldyValue (v : Byte) (s : State) : State := (s.setY v).setP (setZN v s.p)

/-- The LDA handler (R130). -/
def lda (ea : Addr) (s : State) : State := let v := s.busRead ea; ldaValue v.1 v.2

/-- The LDX handler (R131). -/
def ldx (ea : Addr) (s : State) : State := let v := s.busRead ea; ldxValue v.1 v.2

/-- The LDY handler (R132). -/
def ldy (ea : Addr) (s : State) : State := let v := s.busRead ea; ldyValue v.1 v.2

/-- LDA immediate, opcode 0xA9 (R140). -/
def execLdaImm (imm : Byte) (s : State) : Host.Outcome State Fault Refusal :=
  .next (performDirect true (ldaValue imm) 2 s)

/-- LDA zero page, opcode 0xA5 (R141). -/
def execLdaZpg (zp : Byte) (s : State) : Host.Outcome State Fault Refusal :=
  .next (perform true (eaZpg zp) lda 3 s)

/-- LDA zero page,X, opcode 0xB5 (R142). -/
def execLdaZpgx (zp : Byte) (s : State) : Host.Outcome State Fault Refusal :=
  .next (perform true (eaZpgx zp) lda 4 s)

/-- LDA absolute, opcode 0xAD (R143). -/
def execLdaAbs (base : Addr) (s : State) : Host.Outcome State Fault Refusal :=
  .next (perform true (eaAbs base) lda 4 s)

/-- LDA absolute,X, opcode 0xBD (R144). -/
def execLdaAbsx (base : Addr) (s : State) : Host.Outcome State Fault Refusal :=
  .next (perform true (eaAbsx base) lda 4 s)

/-- LDA absolute,Y, opcode 0xB9 (R145). -/
def execLdaAbsy (base : Addr) (s : State) : Host.Outcome State Fault Refusal :=
  .next (perform true (eaAbsy base) lda 4 s)

/-- LDA (indirect,X), opcode 0xA1 (R146). -/
def execLdaIndx (zp : Byte) (s : State) : Host.Outcome State Fault Refusal :=
  .next (perform true (eaIndx zp) lda 6 s)

/-- LDA (indirect),Y, opcode 0xB1 (R147). -/
def execLdaIndy (zp : Byte) (s : State) : Host.Outcome State Fault Refusal :=
  .next (perform true (eaIndy zp) lda 5 s)

/-- LDX immediate, opcode 0xA2 (R148). -/
def execLdxImm (imm : Byte) (s : State) : Host.Outcome State Fault Refusal :=
  .next (performDirect true (ldxValue imm) 2 s)

/-- LDX zero page, opcode 0xA6 (R149). -/
def execLdxZpg (zp : Byte) (s : State) : Host.Outcome State Fault Refusal :=
  .next (perform true (eaZpg zp) ldx 3 s)

/-- LDX zero page,Y, opcode 0xB6 (R150). -/
def execLdxZpgy (zp : Byte) (s : State) : Host.Outcome State Fault Refusal :=
  .next (perform true (eaZpgy zp) ldx 4 s)

/-- LDX absolute, opcode 0xAE (R151). -/
def execLdxAbs (base : Addr) (s : State) : Host.Outcome State Fault Refusal :=
  .next (perform true (eaAbs base) ldx 4 s)

/-- LDX absolute,Y, opcode 0xBE (R152). -/
def execLdxAbsy (base : Addr) (s : State) : Host.Outcome State Fault Refusal :=
  .next (perform true (eaAbsy base) ldx 4 s)

/-- LDY immediate, opcode 0xA0 (R153). -/
def execLdyImm (imm : Byte) (s : State) : Host.Outcome State Fault Refusal :=
  .next (performDirect true (ldyValue imm) 2 s)

/-- LDY zero page, opcode 0xA4 (R154). -/
def execLdyZpg (zp : Byte) (s : State) : Host.Outcome State Fault Refusal :=
  .next (perform true (eaZpg zp) ldy 3 s)

/-- LDY zero page,X, opcode 0xB4 (R155). -/
def execLdyZpgx (zp : Byte) (s : State) : Host.Outcome State Fault Refusal :=
  .next (perform true (eaZpgx zp) ldy 4 s)

/-- LDY absolute, opcode 0xAC (R156). -/
def execLdyAbs (base : Addr) (s : State) : Host.Outcome State Fault Refusal :=
  .next (perform true (eaAbs base) ldy 4 s)

/-- LDY absolute,X, opcode 0xBC (R157). -/
def execLdyAbsx (base : Addr) (s : State) : Host.Outcome State Fault Refusal :=
  .next (perform true (eaAbsx base) ldy 4 s)

end Sys2Proof.Machine
end

