-- ==== Sys2Proof/Machine/Stores.lean ====
section
/-!
DEFINITION. The stores STA, STX, STY (41_load_store.md R133–R135, R158–R170). They write no flag and
read nothing at the effective address.
-/

namespace Sys2Proof.Machine

/-- The STA handler (R133). -/
def sta (ea : Addr) (s : State) : State := s.busWrite ea s.a

/-- The STX handler (R134). -/
def stx (ea : Addr) (s : State) : State := s.busWrite ea s.x

/-- The STY handler (R135). -/
def sty (ea : Addr) (s : State) : State := s.busWrite ea s.y

/-- STA zero page, opcode 0x85 (R158). -/
def execStaZpg (zp : Byte) (s : State) : Host.Outcome State Fault Refusal :=
  .next (perform false (eaZpg zp) sta 3 s)

/-- STA zero page,X, opcode 0x95 (R159). -/
def execStaZpgx (zp : Byte) (s : State) : Host.Outcome State Fault Refusal :=
  .next (perform false (eaZpgx zp) sta 4 s)

/-- STA absolute, opcode 0x8D (R160). -/
def execStaAbs (base : Addr) (s : State) : Host.Outcome State Fault Refusal :=
  .next (perform false (eaAbs base) sta 4 s)

/-- STA absolute,X, opcode 0x9D (R161). -/
def execStaAbsx (base : Addr) (s : State) : Host.Outcome State Fault Refusal :=
  .next (perform false (eaAbsx base) sta 5 s)

/-- STA absolute,Y, opcode 0x99 (R162). -/
def execStaAbsy (base : Addr) (s : State) : Host.Outcome State Fault Refusal :=
  .next (perform false (eaAbsy base) sta 5 s)

/-- STA (indirect,X), opcode 0x81 (R163). -/
def execStaIndx (zp : Byte) (s : State) : Host.Outcome State Fault Refusal :=
  .next (perform false (eaIndx zp) sta 6 s)

/-- STA (indirect),Y, opcode 0x91 (R164). -/
def execStaIndy (zp : Byte) (s : State) : Host.Outcome State Fault Refusal :=
  .next (perform false (eaIndy zp) sta 6 s)

/-- STX zero page, opcode 0x86 (R165). -/
def execStxZpg (zp : Byte) (s : State) : Host.Outcome State Fault Refusal :=
  .next (perform false (eaZpg zp) stx 3 s)

/-- STX zero page,Y, opcode 0x96 (R166). -/
def execStxZpgy (zp : Byte) (s : State) : Host.Outcome State Fault Refusal :=
  .next (perform false (eaZpgy zp) stx 4 s)

/-- STX absolute, opcode 0x8E (R167). -/
def execStxAbs (base : Addr) (s : State) : Host.Outcome State Fault Refusal :=
  .next (perform false (eaAbs base) stx 4 s)

/-- STY zero page, opcode 0x84 (R168). -/
def execStyZpg (zp : Byte) (s : State) : Host.Outcome State Fault Refusal :=
  .next (perform false (eaZpg zp) sty 3 s)

/-- STY zero page,X, opcode 0x94 (R169). -/
def execStyZpgx (zp : Byte) (s : State) : Host.Outcome State Fault Refusal :=
  .next (perform false (eaZpgx zp) sty 4 s)

/-- STY absolute, opcode 0x8C (R170). -/
def execStyAbs (base : Addr) (s : State) : Host.Outcome State Fault Refusal :=
  .next (perform false (eaAbs base) sty 4 s)

end Sys2Proof.Machine
end

