-- ==== Sys2Proof/Machine/Dispatch.lean ====
section
/-! DEFINITION. The one dispatch from instructions to their meanings. -/

namespace Sys2Proof.Machine

def exec (i : Instr) (s : State) : Host.Outcome State Fault Refusal :=
  match i with
  | .ldaImm imm => Sys2Proof.Machine.execLdaImm imm s
  | .ldaZpg zp => Sys2Proof.Machine.execLdaZpg zp s
  | .ldaZpgx zp => Sys2Proof.Machine.execLdaZpgx zp s
  | .ldaAbs base => Sys2Proof.Machine.execLdaAbs base s
  | .ldaAbsx base => Sys2Proof.Machine.execLdaAbsx base s
  | .ldaAbsy base => Sys2Proof.Machine.execLdaAbsy base s
  | .ldaIndx zp => Sys2Proof.Machine.execLdaIndx zp s
  | .ldaIndy zp => Sys2Proof.Machine.execLdaIndy zp s
  | .ldxImm imm => Sys2Proof.Machine.execLdxImm imm s
  | .ldxZpg zp => Sys2Proof.Machine.execLdxZpg zp s
  | .ldxZpgy zp => Sys2Proof.Machine.execLdxZpgy zp s
  | .ldxAbs base => Sys2Proof.Machine.execLdxAbs base s
  | .ldxAbsy base => Sys2Proof.Machine.execLdxAbsy base s
  | .ldyImm imm => Sys2Proof.Machine.execLdyImm imm s
  | .ldyZpg zp => Sys2Proof.Machine.execLdyZpg zp s
  | .ldyZpgx zp => Sys2Proof.Machine.execLdyZpgx zp s
  | .ldyAbs base => Sys2Proof.Machine.execLdyAbs base s
  | .ldyAbsx base => Sys2Proof.Machine.execLdyAbsx base s
  | .staZpg zp => Sys2Proof.Machine.execStaZpg zp s
  | .staZpgx zp => Sys2Proof.Machine.execStaZpgx zp s
  | .staAbs base => Sys2Proof.Machine.execStaAbs base s
  | .staAbsx base => Sys2Proof.Machine.execStaAbsx base s
  | .staAbsy base => Sys2Proof.Machine.execStaAbsy base s
  | .staIndx zp => Sys2Proof.Machine.execStaIndx zp s
  | .staIndy zp => Sys2Proof.Machine.execStaIndy zp s
  | .stxZpg zp => Sys2Proof.Machine.execStxZpg zp s
  | .stxZpgy zp => Sys2Proof.Machine.execStxZpgy zp s
  | .stxAbs base => Sys2Proof.Machine.execStxAbs base s
  | .styZpg zp => Sys2Proof.Machine.execStyZpg zp s
  | .styZpgx zp => Sys2Proof.Machine.execStyZpgx zp s
  | .styAbs base => Sys2Proof.Machine.execStyAbs base s
  | .adcImm imm => Sys2Proof.Machine.execAdcImm imm s
  | .adcZpg zp => Sys2Proof.Machine.execAdcZpg zp s
  | .adcZpgx zp => Sys2Proof.Machine.execAdcZpgx zp s
  | .adcAbs base => Sys2Proof.Machine.execAdcAbs base s
  | .adcAbsx base => Sys2Proof.Machine.execAdcAbsx base s
  | .adcAbsy base => Sys2Proof.Machine.execAdcAbsy base s
  | .adcIndx zp => Sys2Proof.Machine.execAdcIndx zp s
  | .adcIndy zp => Sys2Proof.Machine.execAdcIndy zp s
  | .sbcImm imm => Sys2Proof.Machine.execSbcImm imm s
  | .sbcZpg zp => Sys2Proof.Machine.execSbcZpg zp s
  | .sbcZpgx zp => Sys2Proof.Machine.execSbcZpgx zp s
  | .sbcAbs base => Sys2Proof.Machine.execSbcAbs base s
  | .sbcAbsx base => Sys2Proof.Machine.execSbcAbsx base s
  | .sbcAbsy base => Sys2Proof.Machine.execSbcAbsy base s
  | .sbcIndx zp => Sys2Proof.Machine.execSbcIndx zp s
  | .sbcIndy zp => Sys2Proof.Machine.execSbcIndy zp s
  | .incZpg zp => Sys2Proof.Machine.execIncZpg zp s
  | .incZpgx zp => Sys2Proof.Machine.execIncZpgx zp s
  | .incAbs base => Sys2Proof.Machine.execIncAbs base s
  | .incAbsx base => Sys2Proof.Machine.execIncAbsx base s
  | .decZpg zp => Sys2Proof.Machine.execDecZpg zp s
  | .decZpgx zp => Sys2Proof.Machine.execDecZpgx zp s
  | .decAbs base => Sys2Proof.Machine.execDecAbs base s
  | .decAbsx base => Sys2Proof.Machine.execDecAbsx base s
  | .inx => Sys2Proof.Machine.execInx s
  | .iny => Sys2Proof.Machine.execIny s
  | .dex => Sys2Proof.Machine.execDex s
  | .dey => Sys2Proof.Machine.execDey s

end Sys2Proof.Machine
end

