-- ==== Sys2Proof/Machine/Fetch.lean ====
section
/-!
DEFINITION. Fetching an instruction's bytes at PC (40_engine_addressing.md R100 steps 1 to 3, and the
operand reads with which every resolver's step 5 begins, R110–R122).
-/

namespace Sys2Proof.Machine

/-- Read the operand bytes that a shape needs, at PC and after it, and assemble the instruction. -/
def fetchOperand : Shape → State → Instr × State
  | .implied i, s => (i, s)
  | .byteOperand f, s => let b := s.fetchByte; (f b.1, b.2)
  | .wordOperand f, s => let base := s.fetchWord; (f base.1, base.2)

/-- Fetch and decode the instruction at PC, PC ending past its last byte. Where the opcode byte
selects an empty entry: that byte, and the state with PC past it; no operand byte is read
(60_exceptions.md R240). -/
def fetchInstr (s : State) : Except (Byte × State) (Instr × State) :=
  let op := s.fetchByte
  match lookup op.1 with
  | none => .error op
  | some r => .ok (fetchOperand r.shape op.2)

/-- Store bytes in a flat bus's memory from `addr` on, addresses modulo 2^16; no bus access. -/
def placeBytes : List Byte → Addr → Memory → Memory
  | [], _, m => m
  | b :: rest, addr, m => placeBytes rest (addr + 1) (m.write addr.toNat b)

end Sys2Proof.Machine
end

