-- ==== Sys2Proof/Machine/Step.lean ====
section
/-!
DEFINITION. One step, which is one Tick (00_scope.md R6): fetch and decode the instruction at PC and
run it, or raise `UnimplementedOpcode` (40_engine_addressing.md R100, R103).
-/

namespace Sys2Proof.Machine

/-- One Tick. -/
def step (s : State) : Host.Outcome State Fault Refusal :=
  match fetchInstr s with
  | .ok (i, s1) => exec i s1
  | .error (op, s1) => .fault (.unimplementedOpcode op (s1.recordFault op))

/-- `s` with an instruction's bytes at PC, the bits of `w` numbered as spec/opcode_table.json numbers
them and zero above `nbits`, behind a flat bus, so that a fetch returns them (log entry 6). -/
def State.withFetchWord (s : State) (nbits w : Nat) : State :=
  { s with busKind := .flat, mem := placeBytes (tableBytes nbits w) s.pc s.mem }

end Sys2Proof.Machine
end

