-- ==== Sys2Proof/Machine/Tick.lean ====
section
/-!
DEFINITION. The Tick written as 40_engine_addressing.md R100 writes it: seven steps over the decode
table, the resolver reading its operand at PC. `step` goes through the decoded instruction instead;
that the two agree is stated in Certificates/Slice0/Obligations.lean.
-/

namespace Sys2Proof.Machine

/-- The handler of a decode entry applied to the effective address (R100 step 6); INX, INY, DEX and
DEY ignore it (43_inc_dec.md R212). -/
def runHandler : Handler → Addr → State → State
  | .lda => lda
  | .ldx => ldx
  | .ldy => ldy
  | .sta => sta
  | .stx => stx
  | .sty => sty
  | .adc => adc
  | .sbc => sbc
  | .inc => inc
  | .dec => dec
  | .inx => fun _ => inx
  | .iny => fun _ => iny
  | .dex => fun _ => dex
  | .dey => fun _ => dey

/-- The seven steps of R100. An entry of the table has both handlers or neither (R81, R100). -/
def tick (s : State) : Host.Outcome State Fault Refusal :=
  let op := s.fetchByte
  let e := decodeTable op.1
  match e.handler, e.resolver with
  | some h, some r => .next (perform e.penalty (resolve r) (runHandler h) e.baseCycles op.2)
  | _, _ => .fault (.unimplementedOpcode op.1 (op.2.recordFault op.1))

end Sys2Proof.Machine
end

