-- ==== Sys2Proof/Machine/HostPort.lean ====
section
/-!
DEFINITION. The host port (10_state.md R40–R46): what the host can do to CORE between Ticks. The
setters are the `State.set…` operations, the getters the fields of `State`, `new(bus)` is
`construct`, `reset()` is `resetCore` (Machine/Ops.lean).
-/

namespace Sys2Proof.Machine

/-- `tick()` as the host sees it: it returns normally, and if the opcode was unimplemented the host
may go on from the state of R240, the fault recorded (60_exceptions.md R244, 92 D23). -/
def hostTick (s : State) : State :=
  match step s with
  | .next t => t
  | .fault (.unimplementedOpcode _ t) => t
  | .refused _ => s

/-- `read(addr)` forwards to the bus (R44). -/
def hostRead (addr : Addr) (s : State) : Byte × State := s.busRead addr

/-- `write(addr, value)` forwards to the bus (R44). -/
def hostWrite (addr : Addr) (v : Byte) (s : State) : State := s.busWrite addr v

/-- `setFlags(mask)` (R45). -/
def hostSetFlags (mask : Byte) (s : State) : State := s.setP (setMask mask s.p)

/-- `clearFlags(mask)` (R45). -/
def hostClearFlags (mask : Byte) (s : State) : State := s.setP (clearMask mask s.p)

/-- `isFlagSet(mask)` (R45). -/
def hostIsFlagSet (mask : Byte) (s : State) : Bool := isSet mask s.p

/-- Host writes in order, one bus write each. -/
def hostWriteAll : List (Addr × Byte) → State → State
  | [], s => s
  | (addr, v) :: rest, s => hostWriteAll rest (hostWrite addr v s)

/-- The conformance harness up to its Tick (70_reset_and_hazards.md R285): Reset, write
`initial.ram`, set PC, A, X, Y, S and P. It does not set `cycles`. -/
def harnessStart (ram : List (Addr × Byte)) (pc : Addr) (a x y sp p : Byte) (s : State) : State :=
  ((((((hostWriteAll ram (resetCore s)).setPc pc).setA a).setX x).setY y).setSp sp).setP p

end Sys2Proof.Machine
end

