-- ==== Sys2Proof/Safety.lean ====
section
/-!
DEFINITION. What counts as a safe state and a safe run, in the terms the statements use.
-/

namespace Sys2Proof.Safety

open Sys2Proof.Machine

/-- The invariant that every Tick keeps: the flat memory stays canonical and inside the address
space (20_memory.md R51, R62). -/
def Canonical (s : State) : Prop := s.mem.wf = true

/-- A run that ends normally (92 D26): the N Ticks the launch names, with no fault recorded. -/
def EndsNormally (n : Nat) (s t : State) : Prop :=
  Host.Core.run Sys2Proof.core n s = .next t ∧ t.faults = []

/-- A run that ends in fault (92 D26): some Tick, after n that completed, raises it. -/
def EndsInFault (s : State) (op : Byte) (t : State) : Prop :=
  ∃ n u, Host.Core.run Sys2Proof.core n s = .next u ∧ step u = .fault (.unimplementedOpcode op t)

/-- The byte of the newest write to `addr` in a history of bus accesses, if it holds one. -/
def lastWrite (addr : Addr) : List BusAccess → Option Byte
  | [] => none
  | .write b v :: older => if b = addr then some v else lastWrite addr older
  | .read _ _ :: older => lastWrite addr older

/-- What a flat bus whose unwritten bytes are `init` (the OPEN parameter `FLAT_INIT`, 92 D22) answers
after a history: the last byte written, or `init` (92 D7). -/
def flatAnswer (init : Addr → Byte) (addr : Addr) (history : List BusAccess) : Byte :=
  (lastWrite addr history).getD (init addr)

/-- Every read of a history got what the flat bus answers at that point (20_memory.md R56, R62). -/
def flatHistory (init : Addr → Byte) : List BusAccess → Prop
  | [] => True
  | .write _ _ :: older => flatHistory init older
  | .read addr v :: older => v = flatAnswer init addr older ∧ flatHistory init older

/-- A flat bus that has kept its contract since its memory was `init`: its memory is what its history
left, and its history is one that such a bus gives. -/
def FlatCoherent (init : Addr → Byte) (s : State) : Prop :=
  s.busKind = .flat ∧ flatHistory init s.trace ∧
    ∀ addr : Addr, s.mem.read addr.toNat = flatAnswer init addr s.trace

end Sys2Proof.Safety
end

