-- ==== Sys2Proof/Certificates/Slice0/Obligations.lean ====
section
/-!
DEFINITION. The statements for the provers, with the few predicates they are written in. Results are
said bit by bit and in exact integers, from the rules, not through the model's own flag functions;
effective addresses of indirect forms through the model's `readPointer`, whose value has a statement
of its own.
-/

open Sys2Proof Sys2Proof.Machine Sys2Proof.Safety

namespace Sys2Proof.Claims

/-- The three registers that loads, stores and increments name. -/
inductive Reg where
  | a | x | y
  deriving DecidableEq, Repr

/-- The register's value in a state. -/
def Reg.get : Reg → State → Byte
  | .a, s => s.a
  | .x, s => s.x
  | .y, s => s.y

/-- `q` is `p` with Z = (v == 0) and N = v[7]; the other six bits as before (10_state.md R33). -/
def ZNof (v p q : Byte) : Prop :=
  q.getLsbD 1 = decide (v = 0) ∧ q.getLsbD 7 = v.getLsbD 7 ∧
    ∀ i, i ≠ 1 → i ≠ 7 → q.getLsbD i = p.getLsbD i

/-- `q` is `p` with C, Z, V and N as given; I, D, B and U as before (42_arithmetic.md R180, R181). -/
def CZVNof (c z v n : Bool) (p q : Byte) : Prop :=
  q.getLsbD 0 = c ∧ q.getLsbD 1 = z ∧ q.getLsbD 6 = v ∧ q.getLsbD 7 = n ∧
    ∀ i, i ≠ 0 → i ≠ 1 → i ≠ 6 → i ≠ 7 → q.getLsbD i = p.getLsbD i

/-- What no instruction touches once its bytes are fetched. PC is among it because the fetch
advances it past the opcode, and past the operand bytes where there are any (log entry 7). -/
def Untouched (s t : State) : Prop :=
  t.sp = s.sp ∧ t.pc = s.pc ∧ t.busKind = s.busKind ∧ t.faults = s.faults

/-- Every byte of memory reads as before. -/
def SameMemory (s t : State) : Prop :=
  ∀ addr : Addr, t.mem.read addr.toNat = s.mem.read addr.toNat

/-- The byte `v` is stored at `ea`: a flat bus holds it there; an open bus holds no memory that
changes, which is the model's choice (DESIGN CHOICE, log entry 3); every other byte reads as before. -/
def StoredAt (ea : Addr) (v : Byte) (s t : State) : Prop :=
  (s.busKind = .flat → t.mem.read ea.toNat = v) ∧ (s.busKind = .openBus → t.mem = s.mem) ∧
    ∀ addr : Addr, addr ≠ ea → t.mem.read addr.toNat = s.mem.read addr.toNat

/-- The penalty of R124 where the entry honours it: 1 if the high byte changes, else 0. -/
def crossing (base ea : Addr) : Nat := if hiByte base = hiByte ea then 0 else 1

/-- `dest` takes `v`; Z and N follow it; the history becomes `hist`; `n` cycles; nothing else. -/
def Loads (dest : Reg) (v : Byte) (hist : List BusAccess) (n : Nat) (s t : State) : Prop :=
  dest.get t = v ∧ (∀ r, r ≠ dest → r.get t = r.get s) ∧ ZNof v s.p t.p ∧ Untouched s t ∧
    SameMemory s t ∧ t.trace = hist ∧ t.cycles = s.cycles + BitVec.ofNat 64 n ∧ t.cpcp = true

/-- A load from `ea`, `r` being the state whose bus has answered the pointer reads, if any. -/
def LoadForm (dest : Reg) (i : Instr) (ea : Addr) (r : State) (n : Nat) (s : State) : Prop :=
  ∃ t, exec i s = .next t ∧
    Loads dest (r.busByte ea) (.read ea (r.busByte ea) :: r.trace) n s t

/-- `v` is stored at `ea` by the last access; no register, no flag changes; `n` cycles. -/
def Stores (ea : Addr) (v : Byte) (hist : List BusAccess) (n : Nat) (s t : State) : Prop :=
  StoredAt ea v s t ∧ (∀ r : Reg, r.get t = r.get s) ∧ t.p = s.p ∧ Untouched s t ∧
    t.trace = .write ea v :: hist ∧ t.cycles = s.cycles + BitVec.ofNat 64 n ∧ t.cpcp = false

/-- A store of `src` to `ea`. -/
def StoreForm (src : Reg) (i : Instr) (ea : Addr) (r : State) (n : Nat) (s : State) : Prop :=
  ∃ t, exec i s = .next t ∧ Stores ea (src.get s) r.trace n s t

/-- A ← A + v + C in nine bits, with C, Z, V, N (42_arithmetic.md R180); nothing else. -/
def Adds (v : Byte) (hist : List BusAccess) (n : Nat) (s t : State) : Prop :=
  let sum := s.a.toNat + v.toNat + (s.p.getLsbD 0).toNat
  t.a.toNat = sum % 256 ∧
    CZVNof (decide (255 < sum)) (decide (sum % 256 = 0))
      (!(s.a ^^^ v).getLsbD 7 && (s.a ^^^ t.a).getLsbD 7) (t.a.getLsbD 7) s.p t.p ∧
    t.x = s.x ∧ t.y = s.y ∧ Untouched s t ∧ SameMemory s t ∧ t.trace = hist ∧
    t.cycles = s.cycles + BitVec.ofNat 64 n ∧ t.cpcp = true

/-- ADC of the byte at `ea`. -/
def AdcForm (i : Instr) (ea : Addr) (r : State) (n : Nat) (s : State) : Prop :=
  ∃ t, exec i s = .next t ∧ Adds (r.busByte ea) (.read ea (r.busByte ea) :: r.trace) n s t

/-- A ← A − v − borrow, the borrow being NOT C, with C, Z, V, N (42_arithmetic.md R181). -/
def Subtracts (v : Byte) (hist : List BusAccess) (n : Nat) (s t : State) : Prop :=
  let diff : Int := (s.a.toNat : Int) - v.toNat - (if s.p.getLsbD 0 = true then 0 else 1)
  (t.a.toNat : Int) = diff % 256 ∧
    CZVNof (decide (0 ≤ diff)) (decide (diff % 256 = 0))
      ((s.a ^^^ v).getLsbD 7 && (s.a ^^^ t.a).getLsbD 7) (t.a.getLsbD 7) s.p t.p ∧
    t.x = s.x ∧ t.y = s.y ∧ Untouched s t ∧ SameMemory s t ∧ t.trace = hist ∧
    t.cycles = s.cycles + BitVec.ofNat 64 n ∧ t.cpcp = true

/-- SBC of the byte at `ea`. -/
def SbcForm (i : Instr) (ea : Addr) (r : State) (n : Nat) (s : State) : Prop :=
  ∃ t, exec i s = .next t ∧ Subtracts (r.busByte ea) (.read ea (r.busByte ea) :: r.trace) n s t

/-- A read-modify-write at `ea`: one read, one write of `f` of the byte read, Z and N of the result;
no register changes; `n` cycles. -/
def ModifyForm (f : Byte → Byte) (i : Instr) (ea : Addr) (n : Nat) (s : State) : Prop :=
  let old := s.busByte ea
  ∃ t, exec i s = .next t ∧ StoredAt ea (f old) s t ∧ (∀ r : Reg, r.get t = r.get s) ∧
    ZNof (f old) s.p t.p ∧ Untouched s t ∧
    t.trace = .write ea (f old) :: .read ea old :: s.trace ∧
    t.cycles = s.cycles + BitVec.ofNat 64 n ∧ t.cpcp = false

/-- The page of an absolute, indexed or pointed-to address changes for this resolver, `s` being the
state after the opcode fetch (40_engine_addressing.md R101, R118, R119, R122). -/
def Crosses : Resolver → State → Prop
  | .absx, s => hiByte s.fetchWord.1 ≠ hiByte (s.fetchWord.1 + s.x.zeroExtend 16)
  | .absy, s => hiByte s.fetchWord.1 ≠ hiByte (s.fetchWord.1 + s.y.zeroExtend 16)
  | .indy, s =>
    let base := (readPointer s.fetchByte.1 s.fetchByte.2).1
    hiByte base ≠ hiByte (base + s.y.zeroExtend 16)
  | _, _ => False

/-- The bus reads of a resolver (40_engine_addressing.md R102). -/
def resolverReads : Resolver → Nat
  | .imp | .imm => 0
  | .zpg | .zpgx | .zpgy | .rel => 1
  | .abs | .absx | .absy => 2
  | .indx | .indy => 3
  | .ind => 4

/-- The bus accesses of a handler (40_engine_addressing.md R102). -/
def handlerAccesses : Handler → Nat
  | .lda | .ldx | .ldy | .adc | .sbc | .sta | .stx | .sty => 1
  | .inc | .dec => 2
  | .inx | .iny | .dex | .dey => 0

/-- The base cycles of R82, by kind of handler and resolver (the table of 70_reset R295). A pair that
no row has counts 0. -/
def costRule (h : Handler) (r : Resolver) : Nat :=
  match h with
  | .inx | .iny | .dex | .dey => 2
  | .inc | .dec =>
    match r with
    | .zpg => 5 | .zpgx => 6 | .abs => 6 | .absx => 7
    | _ => 0
  | .sta | .stx | .sty =>
    match r with
    | .zpg => 3 | .zpgx => 4 | .zpgy => 4 | .abs => 4 | .absx => 5 | .absy => 5 | .indx => 6 | .indy => 6
    | _ => 0
  | .lda | .ldx | .ldy | .adc | .sbc =>
    match r with
    | .imm => 2 | .zpg => 3 | .zpgx => 4 | .zpgy => 4 | .abs => 4 | .absx => 4 | .absy => 4
    | .indx => 6 | .indy => 5
    | _ => 0

/-- The flags a handler may write, as a mask over P (10_state.md R24). -/
def writableFlags : Handler → Byte
  | .lda | .ldx | .ldy | .inc | .dec | .inx | .iny | .dex | .dey => 0x82
  | .sta | .stx | .sty => 0x00
  | .adc | .sbc => 0xC3

/-- S, and the bits I, D, B and U of P, replaced; the rest of the state as it is. -/
def withSilent (sp q : Byte) (s : State) : State :=
  { s with sp := sp, p := (s.p &&& 0xC3) ||| (q &&& 0x3C) }

/-- The bit D of P inverted. -/
def flipD (s : State) : State := { s with p := s.p ^^^ 0x08 }

/-- The history after bytes were read one after another from `addr` on. -/
def readInOrder : List Byte → Addr → List BusAccess → List BusAccess
  | [], _, h => h
  | b :: rest, addr, h => readInOrder rest (addr + 1) (.read addr b :: h)

/-- The 197 empty opcode bytes, as 30_encoding.md R84 lists them. -/
def emptyOpcodes : List Nat :=
  List.range 0x60 ++
  [0x60, 0x62, 0x63, 0x64, 0x66, 0x67, 0x68, 0x6A, 0x6B, 0x6C, 0x6E, 0x6F,
   0x70, 0x72, 0x73, 0x74, 0x76, 0x77, 0x78, 0x7A, 0x7B, 0x7C, 0x7E, 0x7F] ++
  [0x80, 0x82, 0x83, 0x87, 0x89, 0x8A, 0x8B, 0x8F,
   0x90, 0x92, 0x93, 0x97, 0x98, 0x9A, 0x9B, 0x9C, 0x9E, 0x9F] ++
  [0xA3, 0xA7, 0xA8, 0xAA, 0xAB, 0xAF, 0xB0, 0xB2, 0xB3, 0xB7, 0xB8, 0xBA, 0xBB, 0xBF] ++
  [0xC0, 0xC1, 0xC2, 0xC3, 0xC4, 0xC5, 0xC7, 0xC9, 0xCB, 0xCC, 0xCD, 0xCF,
   0xD0, 0xD1, 0xD2, 0xD3, 0xD4, 0xD5, 0xD7, 0xD8, 0xD9, 0xDA, 0xDB, 0xDC, 0xDD, 0xDF] ++
  [0xE0, 0xE2, 0xE3, 0xE4, 0xE7, 0xEA, 0xEB, 0xEC, 0xEF,
   0xF0, 0xF2, 0xF3, 0xF4, 0xF7, 0xF8, 0xFA, 0xFB, 0xFC, 0xFF]

end Sys2Proof.Claims

open Sys2Proof.Claims

/-! ### Reset, registers and the flag unit -/

/-- 10_state.md R35: after Reset every piece of state has the value of the table, from any prior state.
The PC is said on a flat bus, where the order of the two reads does not show, and `cpcp` is left out:
the order and `cpcp` are decisions of the spec (92 D1, D14), said in the next statement with what
Reset does to the model's own fields. -/
def Obligations.ResetLeavesStatedValues : Prop :=
  ∀ s : State,
    let t := resetCore s
    t.a = 0x00 ∧ t.x = 0x00 ∧ t.y = 0x00 ∧ t.sp = 0xFD ∧ t.p = 0x20 ∧ t.cycles = 0 ∧
    (s.busKind = .flat → t.pc.toNat = (s.mem.read 0xFFFD).toNat * 256 + (s.mem.read 0xFFFC).toNat) ∧
    SameMemory s t

/-- 70_reset_and_hazards.md R270, R271 with 92 D1, D14: on any bus Reset makes two reads, the high byte
first, and PC is the word read; cpcp stays. That Reset keeps the bus's kind and the record of faults is
the model's choice (DESIGN CHOICE, log entries 3 and 4). -/
def Obligations.ResetReadsHighByteFirst : Prop :=
  ∀ s : State,
    let hi := s.busByte 0xFFFD
    let lo := (s.afterRead 0xFFFD).busByte 0xFFFC
    (resetCore s).trace = [.read 0xFFFC lo, .read 0xFFFD hi] ++ s.trace ∧
    (resetCore s).pc.toNat = hi.toNat * 256 + lo.toNat ∧ (resetCore s).cpcp = s.cpcp ∧
    (resetCore s).busKind = s.busKind ∧ (resetCore s).faults = s.faults

/-- The model's `State.reset` is Reset of a CORE built over an empty flat memory, whatever the
power-on registers (10_state.md R36; log entries 1 to 4: the empty memory is the model's choice). -/
def Obligations.ResetStateIsAReset : Prop :=
  ∀ (a x y sp p : Byte) (pc : Addr) (cycles : Cycles),
    State.reset = resetCore (construct a x y sp p pc cycles .flat [] [])

/-- 70_reset_and_hazards.md R273, which the spec marks as derived: over a flat bus Reset has the same
effect whatever the registers before it, and a second Reset changes nothing but the history. -/
def Obligations.ResetIgnoresPriorRegisters : Prop :=
  ∀ s t : State, s.busKind = .flat → t.busKind = .flat → t.mem = s.mem → t.cpcp = s.cpcp →
    t.faults = s.faults →
    { resetCore t with trace := [] } = { resetCore s with trace := [] } ∧
    { resetCore (resetCore s) with trace := [] } = { resetCore s with trace := [] }

/-- 10_state.md R32 and R45: set, clear and isSet, bit by bit, and their laws; they change P alone. -/
def Obligations.FlagUnitSetsClearsTests : Prop :=
  ∀ (m : Byte) (s : State),
    (∀ i, (hostSetFlags m s).p.getLsbD i = (s.p.getLsbD i || m.getLsbD i)) ∧
    (∀ i, (hostClearFlags m s).p.getLsbD i = (s.p.getLsbD i && !m.getLsbD i)) ∧
    (hostIsFlagSet m s = true ↔ ∀ i, m.getLsbD i = true → s.p.getLsbD i = true) ∧
    hostIsFlagSet m (hostSetFlags m s) = true ∧
    (m ≠ 0 → hostIsFlagSet m (hostClearFlags m s) = false) ∧
    hostIsFlagSet 0 s = true ∧
    { hostSetFlags m s with p := s.p } = s ∧ { hostClearFlags m s with p := s.p } = s

/-- 10_state.md R33: SetZN, and that Z and N never both end up set. -/
def Obligations.SetZNWritesOnlyZAndN : Prop :=
  ∀ v p : Byte, ZNof v p (setZN v p) ∧
    ¬((setZN v p).getLsbD 1 = true ∧ (setZN v p).getLsbD 7 = true)

/-- 10_state.md R42: a setter writes its whole register with the given value and touches nothing
else, cpcp and the bus among it. -/
def Obligations.SettersWriteOneRegister : Prop :=
  ∀ (s : State) (v : Byte) (w : Addr) (c : Cycles),
    (s.setA v).a = v ∧ { s.setA v with a := s.a } = s ∧
    (s.setX v).x = v ∧ { s.setX v with x := s.x } = s ∧
    (s.setY v).y = v ∧ { s.setY v with y := s.y } = s ∧
    (s.setSp v).sp = v ∧ { s.setSp v with sp := s.sp } = s ∧
    (s.setP v).p = v ∧ { s.setP v with p := s.p } = s ∧
    (s.setPc w).pc = w ∧ { s.setPc w with pc := s.pc } = s ∧
    (s.setCycles c).cycles = c ∧ { s.setCycles c with cycles := s.cycles } = s

/-- 10_state.md R44: the host's read is one bus read and its write one bus write; neither touches
CORE's registers. -/
def Obligations.HostAccessIsOneBusAccess : Prop :=
  ∀ (s : State) (addr : Addr) (v : Byte),
    (hostRead addr s).1 = s.busByte addr ∧
    (hostRead addr s).2 = { s with trace := .read addr (s.busByte addr) :: s.trace } ∧
    (hostWrite addr v s).trace = .write addr v :: s.trace ∧
    { hostWrite addr v s with mem := s.mem, trace := s.trace } = s

/-! ### Memory -/

/-- 20_memory.md R62: on a flat bus a write sets the byte, a read returns it, other bytes stay, and a
read has no side effect on any later answer. -/
def Obligations.FlatBusReturnsLastWrite : Prop :=
  ∀ (s : State) (addr other : Addr) (v : Byte), s.busKind = .flat →
    (s.busWrite addr v).busByte addr = v ∧
    (other ≠ addr → (s.busWrite addr v).busByte other = s.busByte other) ∧
    (s.afterRead addr).busByte other = s.busByte other

/-- The canonical form is one per content: two canonical memories that read the same at every address
are equal data (20_memory.md R51, R62). -/
def Obligations.CanonicalMemoriesAreDetermined : Prop :=
  ∀ m m' : Memory, m.wf = true → m'.wf = true →
    (∀ addr : Addr, m.read addr.toNat = m'.read addr.toNat) → m = m'

/-- The invariant holds right after reset. -/
def Obligations.CanonicalAtReset : Prop := Canonical State.reset

/-- Every Tick keeps the memory canonical and inside the 64 KiB space, whether it completes or ends
in the fault; so does every host operation that writes the bus or resets (20_memory.md R51, R62). The
form, and placing an instruction, are the model's (DESIGN CHOICE, log entries 1 and 6). -/
def Obligations.TickKeepsCanonicalMemory : Prop :=
  ∀ s : State, Canonical s →
    (∀ t, step s = .next t → Canonical t) ∧
    (∀ op t, step s = .fault (.unimplementedOpcode op t) → Canonical t) ∧
    Canonical (resetCore s) ∧ (∀ addr v, Canonical (hostWrite addr v s)) ∧
    (∀ nbits w, Canonical (s.withFetchWord nbits w))

/-- Right after reset the flat bus is coherent with FLAT_INIT zero (log entry 1: the model's
choice). -/
def Obligations.CoherentAtReset : Prop := FlatCoherent (fun _ => 0x00) State.reset

/-- 20_memory.md R56, R59, R62 with 92 D7, D22: whatever FLAT_INIT is, every Tick and every host access
keeps the flat bus coherent: the memory is what the history of writes left, and every read of the
history, of an opcode, an operand, a pointer or data, got the byte last written, or FLAT_INIT. -/
def Obligations.TickKeepsFlatBusCoherent : Prop :=
  ∀ (init : Addr → Byte) (s : State), FlatCoherent init s →
    (∀ t, step s = .next t → FlatCoherent init t) ∧
    (∀ op t, step s = .fault (.unimplementedOpcode op t) → FlatCoherent init t) ∧
    FlatCoherent init (resetCore s) ∧
    (∀ addr, FlatCoherent init (hostRead addr s).2) ∧ (∀ addr v, FlatCoherent init (hostWrite addr v s))

/-! ### Encoding -/

/-- 30_encoding.md R71, R72, R83: decoding the bytes of any instruction, whatever follows them, gives
the instruction back with every operand. 54 of the opcode bytes are the map the spec supplies (92 D16;
PRESUMED, log entry 5). -/
def Obligations.DecodeOfEncode : Prop :=
  ∀ (i : Instr) (rest : List Byte), i.wellFormed = true → decode (encode i ++ rest) = .ok (i, rest)

/-- Each list of bytes is the image of at most one instruction: what decodes is the encoding of what
it decodes to. The opcode bytes as in the statement above (92 D16; log entry 5). -/
def Obligations.DecodedBytesAreItsEncoding : Prop :=
  ∀ (bytes rest : List Byte) (i : Instr), decode bytes = .ok (i, rest) → bytes = encode i ++ rest

/-- Words written out from 30_encoding.md R71 and R83, one at least for each family; the first five
opcode bytes are the source's own, the others the map the spec supplies (92 D16; PRESUMED, log entry
5). -/
def Obligations.SampleWordsDecode : Prop :=
  decodeTableWord 16 0x00A9 = some (.ldaImm 0x00) ∧
  decodeTableWord 16 0x0169 = some (.adcImm 0x01) ∧
  decodeTableWord 16 0x02E9 = some (.sbcImm 0x02) ∧
  decodeTableWord 24 0x20F0BD = some (.ldaAbsx 0x20F0) ∧
  decodeTableWord 24 0x20F09D = some (.staAbsx 0x20F0) ∧
  decodeTableWord 16 0x20B1 = some (.ldaIndy 0x20) ∧
  decodeTableWord 24 0x1234EE = some (.incAbs 0x1234) ∧
  decodeTableWord 8 0xCA = some .dex ∧
  decodeTableWord 8 0xEA = none

/-- 30_encoding.md R84: exactly the listed 197 opcode bytes select an empty entry; which bytes are
implemented is, for 54 of the 59, the map the spec supplies (92 D16; PRESUMED, log entry 5). Every
entry is well formed (R81, 40_engine_addressing.md R103), its base cycles 2 to 7 among the rest: an
empty entry's are a free value in that range (log entry 9), so this holds for every such value. -/
def Obligations.EmptyEntriesAreTheListed : Prop :=
  (∀ op : Byte, (lookup op).isNone = true ↔ op.toNat ∈ emptyOpcodes) ∧ emptyOpcodes.length = 197 ∧
  rows.length = 59 ∧ ∀ op : Byte, (decodeTable op).wellFormed = true

/-- 30_encoding.md R82: the base cycles of every implemented entry, and its penalty flag. -/
def Obligations.BaseCyclesFollowTheTable : Prop :=
  ∀ (op : Byte) (h : Handler) (r : Resolver), (decodeTable op).handler = some h →
    (decodeTable op).resolver = some r →
    (decodeTable op).baseCycles = costRule h r ∧ (decodeTable op).penalty = !h.writesMemory

/-! ### The Tick -/

/-- When the bytes at PC of a flat bus decode to an instruction, a step is that instruction's meaning
in the state with PC past its bytes and their reads in the history. 40_engine_addressing.md R100 gives
the opcode's fetch; that the operand bytes are read before the meaning runs, and not by the resolver
or IMM's handler, is the model's (DEDUCED, log entry 7). -/
def Obligations.StepRunsDecodedInstruction : Prop :=
  ∀ (s : State) (i : Instr) (rest : List Byte), s.busKind = .flat → i.wellFormed = true →
    decode [s.mem.read s.pc.toNat, s.mem.read (s.pc + 1).toNat, s.mem.read (s.pc + 2).toNat]
      = .ok (i, rest) →
    step s = exec i { s with
      pc := s.pc + BitVec.ofNat 16 (encode i).length,
      trace := readInOrder (encode i) s.pc s.trace }

/-- The same on any bus: the opcode byte the bus answers selects the row, and the row's operand bytes
are read one after the other at PC (40_engine_addressing.md R100, R116 with 92 D2). That the fetch reads
them, the immediate byte among them, and hands them to the meaning is the model's (DEDUCED, log entry
7). -/
def Obligations.StepFetchesByShape : Prop :=
  ∀ (s : State) (row : Row), lookup (s.busByte s.pc) = some row →
    let s1 := (s.afterRead s.pc).advancePc
    let s2 := (s1.afterRead s1.pc).advancePc
    let s3 := (s2.afterRead s2.pc).advancePc
    (∀ i, row.shape = .implied i → step s = exec i s1) ∧
    (∀ f, row.shape = .byteOperand f → step s = exec (f (s1.busByte s1.pc)) s2) ∧
    (∀ f, row.shape = .wordOperand f →
      step s = exec (f (concat (s2.busByte s2.pc) (s1.busByte s1.pc))) s3)

/-- 60_exceptions.md R240, R241, R244 with 92 D4: an empty entry ends the step in the fault, with PC one
past the opcode, one bus read, the fault recorded and everything else as before. The form of the record
is the model's (DESIGN CHOICE, log entry 4). -/
def Obligations.EmptyEntryFaults : Prop :=
  ∀ s : State, lookup (s.busByte s.pc) = none →
    step s = .fault (.unimplementedOpcode (s.busByte s.pc) { s with
      pc := s.pc + 1,
      trace := .read s.pc (s.busByte s.pc) :: s.trace,
      faults := s.busByte s.pc :: s.faults })

/-- 40_engine_addressing.md R103: a Tick has exactly two outcomes, completion for an implemented entry
and the fault naming the opcode byte for an empty one. -/
def Obligations.TickHasTwoOutcomes : Prop :=
  ∀ s : State,
    ((lookup (s.busByte s.pc)).isSome = true ∧ ∃ t, step s = .next t) ∨
    ((lookup (s.busByte s.pc)).isNone = true ∧
      ∃ t, step s = .fault (.unimplementedOpcode (s.busByte s.pc) t))

/-- 40_engine_addressing.md R100: fetching, decoding and running the decoded instruction is the
seven-step Tick over the decode table, on every bus and in every state. -/
def Obligations.StepIsTheSevenStepTick : Prop := ∀ s : State, step s = tick s

/-- 92 D23, 60_exceptions.md R244: the host may tick on after a fault, and faults stay recorded; a Tick
that completes records none. The form of the record is the model's (DESIGN CHOICE, log entry 4). -/
def Obligations.HostTicksOnAfterFault : Prop :=
  ∀ s : State,
    (∀ t, step s = .next t → hostTick s = t ∧ t.faults = s.faults) ∧
    (∀ op t, step s = .fault (.unimplementedOpcode op t) →
      hostTick s = t ∧ t.faults = op :: s.faults ∧ t.pc = s.pc + 1)

/-- 40_engine_addressing.md R101: the net change of cycles over a Tick; and no Tick reads the counter. -/
def Obligations.CycleCostOfATick : Prop :=
  ∀ s : State,
    let e := decodeTable (s.busByte s.pc)
    (∀ t, step s = .next t → ∃ r, e.resolver = some r ∧ ∃ k : Nat,
      t.cycles = s.cycles + BitVec.ofNat 64 (e.baseCycles + k) ∧ k ≤ 1 ∧
      (k = 1 ↔ e.penalty = true ∧ Crosses r (s.afterRead s.pc).advancePc)) ∧
    (∀ op t, step s = .fault (.unimplementedOpcode op t) → t.cycles = s.cycles) ∧
    (∀ t d, step s = .next t →
      step (s.setCycles (s.cycles + d)) = .next (t.setCycles (t.cycles + d))) ∧
    (∀ op t d, step s = .fault (.unimplementedOpcode op t) →
      step (s.setCycles (s.cycles + d)) = .fault (.unimplementedOpcode op (t.setCycles (t.cycles + d))))

/-- 40_engine_addressing.md R102 with 92 D6: the number of bus accesses of a Tick, at most six; the
history only grows. -/
def Obligations.BusAccessesOfATick : Prop :=
  ∀ s : State,
    let e := decodeTable (s.busByte s.pc)
    (∀ t, step s = .next t → ∃ h r new, e.handler = some h ∧ e.resolver = some r ∧
      t.trace = new ++ s.trace ∧
      new.length = 1 + resolverReads r + handlerAccesses h ∧ new.length ≤ 6) ∧
    (∀ op t, step s = .fault (.unimplementedOpcode op t) →
      t.trace = .read s.pc op :: s.trace)

/-- 30_encoding.md R73 with R71: PC advances by the length that the opcode's format gives, or by one
past an empty entry's opcode. -/
def Obligations.PcAdvancesByLength : Prop :=
  ∀ s : State,
    (∀ t, step s = .next t → ∃ r, (decodeTable (s.busByte s.pc)).resolver = some r ∧
      t.pc = s.pc + BitVec.ofNat 16 (1 + r.operandBytes)) ∧
    (∀ op t, step s = .fault (.unimplementedOpcode op t) → t.pc = s.pc + 1)

/-- 40_engine_addressing.md R104: no Tick reads or writes S, or P's bits I, D, B and U. Replacing them
before the Tick and after it is the same, and the Tick leaves them as they were. -/
def Obligations.SilentStateIsNeitherReadNorWritten : Prop :=
  ∀ (s : State) (sp q : Byte),
    (∀ t, step s = .next t → step (withSilent sp q s) = .next (withSilent sp q t) ∧
      t.sp = s.sp ∧ t.p &&& 0x3C = s.p &&& 0x3C) ∧
    (∀ op t, step s = .fault (.unimplementedOpcode op t) →
      step (withSilent sp q s) = .fault (.unimplementedOpcode op (withSilent sp q t)) ∧
      t.sp = s.sp ∧ t.p = s.p)

/-- 10_state.md R30: cpcp between Ticks is unobservable; a Tick that completes does not depend on
it. -/
def Obligations.CpcpIsUnobservable : Prop :=
  ∀ (s t : State) (b : Bool), step s = .next t → step (s.setCpcp b) = .next t

/-- 20_memory.md R62 (reads have no side effect): on a flat bus a Tick does not depend on the history or
on the recorded faults (the model's fields, log entries 3 and 4); it adds to the history what it would
add to any other. -/
def Obligations.FlatTickIgnoresHistory : Prop :=
  ∀ s t : State, s.busKind = .flat → step s = .next t →
    ∃ new, t.trace = new ++ s.trace ∧
      ∀ (h : List BusAccess) (fs : List Byte),
        step { s with trace := h, faults := fs } = .next { t with trace := new ++ h, faults := fs }

/-- 10_state.md R24: the bits of P that each handler leaves alone, for all instructions. -/
def Obligations.FlagsWrittenAsTabled : Prop :=
  ∀ (i : Instr) (s t : State) (row : Row), exec i s = .next t →
    lookup ((encode i).headD 0) = some row →
    t.p &&& ~~~(writableFlags row.handler) = s.p &&& ~~~(writableFlags row.handler)

/-- 10_state.md R27 and R28 over whole runs: Ticks that complete never change S, the bits I, D, B and U,
the bus's kind or the record of faults, so U stays 1 from Reset by Ticks alone. The kind and the record
are fields of the model (DESIGN CHOICE, log entries 3 and 4). -/
def Obligations.RunsKeepStackPointerAndUnusedBit : Prop :=
  ∀ (n : Nat) (s t : State), Host.Core.run Sys2Proof.core n s = .next t →
    t.sp = s.sp ∧ t.p &&& 0x3C = s.p &&& 0x3C ∧ t.faults = s.faults ∧ t.busKind = s.busKind ∧
    (s.faults = [] → EndsNormally n s t)

/-! ### The address resolvers, at PC -/

/-- 40_engine_addressing.md R112: IMM gives PC and advances it; it reads nothing; the handler then reads
the operand there. -/
def Obligations.ImmediateResolver : Prop :=
  ∀ s : State, resolve .imm s = (s.pc, { s with pc := s.pc + 1 }) ∧
    (s.pc = 0xFFFF → (resolve .imm s).1 = 0xFFFF ∧ (resolve .imm s).2.pc = 0x0000) ∧
    (∀ op h, (decodeTable op).resolver = some .imm → (decodeTable op).handler = some h →
      (runHandler h (resolve .imm s).1 (resolve .imm s).2).trace = .read s.pc (s.busByte s.pc) :: s.trace)

/-- 40_engine_addressing.md R113, R114, R115: the zero-page forms, on any bus; ZPGY is used by LDX and
STX only. -/
def Obligations.ZeroPageResolvers : Prop :=
  ∀ s : State,
    let b := s.busByte s.pc
    let after : State := { s with pc := s.pc + 1, trace := .read s.pc b :: s.trace }
    ((resolve .zpg s).1.toNat = b.toNat ∧ (resolve .zpg s).2 = after) ∧
    ((resolve .zpgx s).1.toNat = (b.toNat + s.x.toNat) % 256 ∧ (resolve .zpgx s).2 = after) ∧
    ((resolve .zpgy s).1.toNat = (b.toNat + s.y.toNat) % 256 ∧ (resolve .zpgy s).2 = after) ∧
    (∀ op, (decodeTable op).resolver = some .zpgy →
      (decodeTable op).handler = some .ldx ∨ (decodeTable op).handler = some .stx)

/-- 40_engine_addressing.md R117, R118, R119, R124 on a flat bus: the absolute forms. -/
def Obligations.AbsoluteResolvers : Prop :=
  ∀ s : State, s.busKind = .flat →
    let base := (s.mem.read (s.pc + 1).toNat).toNat * 256 + (s.mem.read s.pc.toNat).toNat
    let penalty (ea : Nat) : Cycles := if s.cpcp = true ∧ ea / 256 ≠ base / 256 then 1 else 0
    ((resolve .abs s).1.toNat = base ∧
      { (resolve .abs s).2 with trace := s.trace } = { s with pc := s.pc + 2 }) ∧
    ((resolve .absx s).1.toNat = (base + s.x.toNat) % 65536 ∧
      { (resolve .absx s).2 with trace := s.trace } =
        { s with pc := s.pc + 2, cycles := s.cycles + penalty ((base + s.x.toNat) % 65536) }) ∧
    ((resolve .absy s).1.toNat = (base + s.y.toNat) % 65536 ∧
      { (resolve .absy s).2 with trace := s.trace } =
        { s with pc := s.pc + 2, cycles := s.cycles + penalty ((base + s.y.toNat) % 65536) })

/-- 40_engine_addressing.md R120 on a flat bus: IND and its page-wrap quirk. No entry of the table reaches
it. -/
def Obligations.IndirectResolver : Prop :=
  ∀ s : State, s.busKind = .flat →
    let ptr := (s.mem.read (s.pc + 1).toNat).toNat * 256 + (s.mem.read s.pc.toNat).toNat
    (resolve .ind s).1.toNat =
      (s.mem.read (ptr / 256 * 256 + (ptr + 1) % 256)).toNat * 256 + (s.mem.read ptr).toNat ∧
    { (resolve .ind s).2 with trace := s.trace } = { s with pc := s.pc + 2 } ∧
    ∀ op, (decodeTable op).resolver ≠ some .ind

/-- 40_engine_addressing.md R121 on a flat bus: INDX, its pointer confined to the zero page. -/
def Obligations.IndexedIndirectResolver : Prop :=
  ∀ s : State, s.busKind = .flat →
    let z := ((s.mem.read s.pc.toNat).toNat + s.x.toNat) % 256
    (resolve .indx s).1.toNat =
      (s.mem.read ((z + 1) % 256)).toNat * 256 + (s.mem.read z).toNat ∧
    { (resolve .indx s).2 with trace := s.trace } = { s with pc := s.pc + 1 }

/-- 40_engine_addressing.md R122, R124 on a flat bus: INDY, and its page test against the high byte
before Y is added. -/
def Obligations.IndirectIndexedResolver : Prop :=
  ∀ s : State, s.busKind = .flat →
    let b := (s.mem.read s.pc.toNat).toNat
    let base := (s.mem.read ((b + 1) % 256)).toNat * 256 + (s.mem.read b).toNat
    let ea := (base + s.y.toNat) % 65536
    (resolve .indy s).1.toNat = ea ∧
    { (resolve .indy s).2 with trace := s.trace } =
      { s with pc := s.pc + 1,
               cycles := s.cycles + (if s.cpcp = true ∧ ea / 256 ≠ base / 256 then 1 else 0) }

/-- 40_engine_addressing.md R123: REL sums the signed offset to the PC that addresses the offset byte,
then advances PC; on any bus. That base is the spec's own decision between two readings of the source
(92 D13, 90 C4). No entry of the table reaches REL. -/
def Obligations.RelativeResolver : Prop :=
  ∀ s : State,
    let b := s.busByte s.pc
    ((resolve .rel s).1.toNat : Int) = (s.pc.toNat + b.toInt) % 65536 ∧
    (resolve .rel s).2 = { s with pc := s.pc + 1, trace := .read s.pc b :: s.trace } ∧
    ∀ op, (decodeTable op).resolver ≠ some .rel

/-- 92 D2, D3, D6: the reads of the resolvers that read more than one byte, in order, on any bus; the
pair is read low byte first; and IMP's unused 0x0000, with no read. -/
def Obligations.ResolverReadsInOrder : Prop :=
  ∀ s : State,
    let s1 := (s.afterRead s.pc).advancePc
    let s2 := (s1.afterRead s1.pc).advancePc
    let b := s.busByte s.pc
    let w := concat (s1.busByte s1.pc) b
    let z := b + s.x
    resolve .imp s = (0x0000, s) ∧
    ((resolve .abs s).1 = w ∧ (resolve .abs s).2.trace = s2.trace) ∧
    ((resolve .absx s).1 = w + zext16 s.x ∧ (resolve .absx s).2.trace = s2.trace) ∧
    ((resolve .absy s).1 = w + zext16 s.y ∧ (resolve .absy s).2.trace = s2.trace) ∧
    (let t := s2.afterRead w
     let second := concat (hiByte w) (loByte w + 1)
     (resolve .ind s).1 = concat (t.busByte second) (s2.busByte w) ∧
     (resolve .ind s).2 = t.afterRead second) ∧
    (let t := s1.afterRead (zext16 z)
     (resolve .indx s).1 = concat (t.busByte (zext16 (z + 1))) (s1.busByte (zext16 z)) ∧
     (resolve .indx s).2 = t.afterRead (zext16 (z + 1))) ∧
    (let t := s1.afterRead (zext16 b)
     (resolve .indy s).1 =
       concat (t.busByte (zext16 (b + 1))) (s1.busByte (zext16 b)) + zext16 s.y ∧
     (resolve .indy s).2.trace = (t.afterRead (zext16 (b + 1))).trace)

/-- 40_engine_addressing.md R121, R122 on a flat bus: the word the indirect forms read through the zero
page, by `readPointer`, which the statements below use. -/
def Obligations.PointerIsAZeroPageWord : Prop :=
  ∀ (s : State) (z : Byte), s.busKind = .flat →
    (readPointer z s).1.toNat =
      (s.mem.read ((z.toNat + 1) % 256)).toNat * 256 + (s.mem.read z.toNat).toNat ∧
    { (readPointer z s).2 with trace := s.trace } = s

/-! ### Loads and stores: each instruction completes in every state, with its result and frame -/

/-- 41_load_store.md R130, R140–R147: LDA in its eight forms. The operand is already fetched (DEDUCED,
log entry 7): the meaning leaves PC, and the immediate form takes the fetched byte and adds no read. -/
def Obligations.LdaLoadsTheAccumulator : Prop :=
  ∀ (s : State) (imm zp : Byte) (base : Addr),
    (∃ t, exec (.ldaImm imm) s = .next t ∧ Loads .a imm s.trace 2 s t) ∧
    LoadForm .a (.ldaZpg zp) (zext16 zp) s 3 s ∧
    LoadForm .a (.ldaZpgx zp) (zext16 (zp + s.x)) s 4 s ∧
    LoadForm .a (.ldaAbs base) base s 4 s ∧
    LoadForm .a (.ldaAbsx base) (base + zext16 s.x) s (4 + crossing base (base + zext16 s.x)) s ∧
    LoadForm .a (.ldaAbsy base) (base + zext16 s.y) s (4 + crossing base (base + zext16 s.y)) s ∧
    (let p := readPointer (zp + s.x) s
     LoadForm .a (.ldaIndx zp) p.1 p.2 6 s) ∧
    (let p := readPointer zp s
     LoadForm .a (.ldaIndy zp) (p.1 + zext16 s.y) p.2 (5 + crossing p.1 (p.1 + zext16 s.y)) s)

/-- 41_load_store.md R131, R148–R152: LDX in its five forms. As for LDA, the operand is already fetched
(DEDUCED, log entry 7), and the immediate form adds no read. -/
def Obligations.LdxLoadsX : Prop :=
  ∀ (s : State) (imm zp : Byte) (base : Addr),
    (∃ t, exec (.ldxImm imm) s = .next t ∧ Loads .x imm s.trace 2 s t) ∧
    LoadForm .x (.ldxZpg zp) (zext16 zp) s 3 s ∧
    LoadForm .x (.ldxZpgy zp) (zext16 (zp + s.y)) s 4 s ∧
    LoadForm .x (.ldxAbs base) base s 4 s ∧
    LoadForm .x (.ldxAbsy base) (base + zext16 s.y) s (4 + crossing base (base + zext16 s.y)) s

/-- 41_load_store.md R132, R153–R157: LDY in its five forms. As for LDA, the operand is already fetched
(DEDUCED, log entry 7), and the immediate form adds no read. -/
def Obligations.LdyLoadsY : Prop :=
  ∀ (s : State) (imm zp : Byte) (base : Addr),
    (∃ t, exec (.ldyImm imm) s = .next t ∧ Loads .y imm s.trace 2 s t) ∧
    LoadForm .y (.ldyZpg zp) (zext16 zp) s 3 s ∧
    LoadForm .y (.ldyZpgx zp) (zext16 (zp + s.x)) s 4 s ∧
    LoadForm .y (.ldyAbs base) base s 4 s ∧
    LoadForm .y (.ldyAbsx base) (base + zext16 s.x) s (4 + crossing base (base + zext16 s.x)) s

/-- 41_load_store.md R133, R158–R164: STA in its seven forms; no penalty, no flag, no read at the
address. That an open bus holds no memory that changes is the model's choice (DESIGN CHOICE, log entry
3); the operand is already fetched, so PC stays (DEDUCED, log entry 7). -/
def Obligations.StaStoresTheAccumulator : Prop :=
  ∀ (s : State) (zp : Byte) (base : Addr),
    StoreForm .a (.staZpg zp) (zext16 zp) s 3 s ∧
    StoreForm .a (.staZpgx zp) (zext16 (zp + s.x)) s 4 s ∧
    StoreForm .a (.staAbs base) base s 4 s ∧
    StoreForm .a (.staAbsx base) (base + zext16 s.x) s 5 s ∧
    StoreForm .a (.staAbsy base) (base + zext16 s.y) s 5 s ∧
    (let p := readPointer (zp + s.x) s
     StoreForm .a (.staIndx zp) p.1 p.2 6 s) ∧
    (let p := readPointer zp s
     StoreForm .a (.staIndy zp) (p.1 + zext16 s.y) p.2 6 s)

/-- 41_load_store.md R134, R165–R167: STX in its three forms. As for STA, log entries 3 (DESIGN CHOICE) and 7
(DEDUCED) for the open bus's memory and for PC. -/
def Obligations.StxStoresX : Prop :=
  ∀ (s : State) (zp : Byte) (base : Addr),
    StoreForm .x (.stxZpg zp) (zext16 zp) s 3 s ∧
    StoreForm .x (.stxZpgy zp) (zext16 (zp + s.y)) s 4 s ∧
    StoreForm .x (.stxAbs base) base s 4 s

/-- 41_load_store.md R135, R168–R170: STY in its three forms. As for STA, log entries 3 (DESIGN CHOICE) and 7
(DEDUCED) for the open bus's memory and for PC. -/
def Obligations.StyStoresY : Prop :=
  ∀ (s : State) (zp : Byte) (base : Addr),
    StoreForm .y (.styZpg zp) (zext16 zp) s 3 s ∧
    StoreForm .y (.styZpgx zp) (zext16 (zp + s.x)) s 4 s ∧
    StoreForm .y (.styAbs base) base s 4 s

/-- `STA addr; LDA addr` on a flat bus leaves A unchanged and sets Z and N from it (95_test_vectors.md
section 1.3, L-ldst). -/
def Obligations.StoreThenLoadKeepsA : Prop :=
  ∀ (s : State) (base : Addr), s.busKind = .flat →
    ∃ t u, exec (.staAbs base) s = .next t ∧ exec (.ldaAbs base) t = .next u ∧
      u.a = s.a ∧ ZNof s.a s.p u.p ∧ u.x = s.x ∧ u.y = s.y ∧ u.cycles = s.cycles + 8

/-- 20_memory.md R59 and 70_reset_and_hazards.md R291, which the spec marks as derived: a store over the
bytes at PC is what the next Tick fetches. The meaning leaves PC where the fetch put it (DEDUCED, log
entry 7). -/
def Obligations.NextFetchSeesTheStore : Prop :=
  ∀ (s t : State), s.busKind = .flat → exec (.staAbs s.pc) s = .next t →
    t.busByte t.pc = s.a ∧
    (lookup s.a = none → ∃ u, step t = .fault (.unimplementedOpcode s.a u)) ∧
    (∀ row, lookup s.a = some row →
      ∃ u, step t = .next u ∧ u.pc = s.pc + BitVec.ofNat 16 (1 + row.resolver.operandBytes))

/-! ### Arithmetic -/

/-- 42_arithmetic.md R180, R185–R192: ADC in its eight forms. The operand is already fetched (DEDUCED, log
entry 7): the meaning leaves PC, and the immediate form takes the fetched byte and adds no read. -/
def Obligations.AdcAddsWithCarry : Prop :=
  ∀ (s : State) (imm zp : Byte) (base : Addr),
    (∃ t, exec (.adcImm imm) s = .next t ∧ Adds imm s.trace 2 s t) ∧
    AdcForm (.adcZpg zp) (zext16 zp) s 3 s ∧
    AdcForm (.adcZpgx zp) (zext16 (zp + s.x)) s 4 s ∧
    AdcForm (.adcAbs base) base s 4 s ∧
    AdcForm (.adcAbsx base) (base + zext16 s.x) s (4 + crossing base (base + zext16 s.x)) s ∧
    AdcForm (.adcAbsy base) (base + zext16 s.y) s (4 + crossing base (base + zext16 s.y)) s ∧
    (let p := readPointer (zp + s.x) s
     AdcForm (.adcIndx zp) p.1 p.2 6 s) ∧
    (let p := readPointer zp s
     AdcForm (.adcIndy zp) (p.1 + zext16 s.y) p.2 (5 + crossing p.1 (p.1 + zext16 s.y)) s)

/-- 42_arithmetic.md R181, R193–R200: SBC in its eight forms; C is set exactly when no borrow occurred (90
C3). As for ADC, the operand is already fetched (DEDUCED, log entry 7), and the immediate form adds no read. -/
def Obligations.SbcSubtractsWithBorrow : Prop :=
  ∀ (s : State) (imm zp : Byte) (base : Addr),
    (∃ t, exec (.sbcImm imm) s = .next t ∧ Subtracts imm s.trace 2 s t) ∧
    SbcForm (.sbcZpg zp) (zext16 zp) s 3 s ∧
    SbcForm (.sbcZpgx zp) (zext16 (zp + s.x)) s 4 s ∧
    SbcForm (.sbcAbs base) base s 4 s ∧
    SbcForm (.sbcAbsx base) (base + zext16 s.x) s (4 + crossing base (base + zext16 s.x)) s ∧
    SbcForm (.sbcAbsy base) (base + zext16 s.y) s (4 + crossing base (base + zext16 s.y)) s ∧
    (let p := readPointer (zp + s.x) s
     SbcForm (.sbcIndx zp) p.1 p.2 6 s) ∧
    (let p := readPointer zp s
     SbcForm (.sbcIndy zp) (p.1 + zext16 s.y) p.2 (5 + crossing p.1 (p.1 + zext16 s.y)) s)

/-- V is "signed-arithmetic overflow" (00_scope.md Glossary): set exactly when the signed result does
not fit in a byte. -/
def Obligations.OverflowIsSignedOverflow : Prop :=
  ∀ (s t : State) (v : Byte),
    let c : Int := (s.p.getLsbD 0).toNat
    (exec (.adcImm v) s = .next t →
      (t.p.getLsbD 6 = true ↔ s.a.toInt + v.toInt + c < -128 ∨ 127 < s.a.toInt + v.toInt + c)) ∧
    (exec (.sbcImm v) s = .next t →
      (t.p.getLsbD 6 = true ↔
        s.a.toInt - v.toInt - (1 - c) < -128 ∨ 127 < s.a.toInt - v.toInt - (1 - c)))

/-- 42_arithmetic.md R182: SBC of v and ADC of the complement of v are one and the same, for every
carry; the spec marks the case Carry = 0 as derived. -/
def Obligations.SbcIsAdcOfComplement : Prop :=
  ∀ (s : State) (v : Byte), exec (.sbcImm v) s = exec (.adcImm (~~~v)) s

/-- 42_arithmetic.md R183: D is read nowhere by ADC and SBC; inverting it before is inverting it
after. -/
def Obligations.DecimalFlagIsIgnored : Prop :=
  ∀ (i : Instr) (s t : State) (row : Row), lookup ((encode i).headD 0) = some row →
    (row.handler = .adc ∨ row.handler = .sbc) → exec i s = .next t →
    exec i (flipD s) = .next (flipD t) ∧ t.p.getLsbD 3 = s.p.getLsbD 3

/-! ### Increment and decrement -/

/-- 43_inc_dec.md R210, R220–R223: INC in its four forms. Exactly one read and one write is the spec's
decision 92 D6; that an open bus holds no memory that changes is the model's choice (DESIGN CHOICE, log
entry 3); the operand is already fetched, so PC stays (DEDUCED, log entry 7). -/
def Obligations.IncIncrementsMemory : Prop :=
  ∀ (s : State) (zp : Byte) (base : Addr),
    ModifyForm (fun v => v + 1) (.incZpg zp) (zext16 zp) 5 s ∧
    ModifyForm (fun v => v + 1) (.incZpgx zp) (zext16 (zp + s.x)) 6 s ∧
    ModifyForm (fun v => v + 1) (.incAbs base) base 6 s ∧
    ModifyForm (fun v => v + 1) (.incAbsx base) (base + zext16 s.x) 7 s

/-- 43_inc_dec.md R211, R224–R227: DEC in its four forms. As for INC: 92 D6, log entries 3 (DESIGN CHOICE)
and 7 (DEDUCED). -/
def Obligations.DecDecrementsMemory : Prop :=
  ∀ (s : State) (zp : Byte) (base : Addr),
    ModifyForm (fun v => v - 1) (.decZpg zp) (zext16 zp) 5 s ∧
    ModifyForm (fun v => v - 1) (.decZpgx zp) (zext16 (zp + s.x)) 6 s ∧
    ModifyForm (fun v => v - 1) (.decAbs base) base 6 s ∧
    ModifyForm (fun v => v - 1) (.decAbsx base) (base + zext16 s.x) 7 s

/-- 43_inc_dec.md R212, R213, R214, R215: INX, INY, DEX, DEY. They have no operand: IMP reads nothing and
leaves PC. -/
def Obligations.RegisterIncrementsAndDecrements : Prop :=
  ∀ s : State,
    (∃ t, exec .inx s = .next t ∧ Loads .x (s.x + 1) s.trace 2 s t) ∧
    (∃ t, exec .iny s = .next t ∧ Loads .y (s.y + 1) s.trace 2 s t) ∧
    (∃ t, exec .dex s = .next t ∧ Loads .x (s.x - 1) s.trace 2 s t) ∧
    (∃ t, exec .dey s = .next t ∧ Loads .y (s.y - 1) s.trace 2 s t)

/-- 43_inc_dec.md R216 on a flat bus (its register cases and the order DEC, INC the spec marks as
derived): increment and decrement undo each other, and Z and N end as SetZN of the original. -/
def Obligations.IncrementAndDecrementUndo : Prop :=
  ∀ (s : State) (base : Addr), s.busKind = .flat →
    let v := s.mem.read base.toNat
    (∃ t u, exec (.incAbs base) s = .next t ∧ exec (.decAbs base) t = .next u ∧
      SameMemory s u ∧ ZNof v s.p u.p ∧ ∀ r : Reg, r.get u = r.get s) ∧
    (∃ t u, exec (.decAbs base) s = .next t ∧ exec (.incAbs base) t = .next u ∧
      SameMemory s u ∧ ZNof v s.p u.p ∧ ∀ r : Reg, r.get u = r.get s) ∧
    (∃ t u, exec .inx s = .next t ∧ exec .dex t = .next u ∧ u.x = s.x ∧ ZNof s.x s.p u.p) ∧
    (∃ t u, exec .dex s = .next t ∧ exec .inx t = .next u ∧ u.x = s.x ∧ ZNof s.x s.p u.p) ∧
    (∃ t u, exec .iny s = .next t ∧ exec .dey t = .next u ∧ u.y = s.y ∧ ZNof s.y s.p u.p) ∧
    (∃ t u, exec .dey s = .next t ∧ exec .iny t = .next u ∧ u.y = s.y ∧ ZNof s.y s.p u.p)

/-! ### The harness -/

/-- 70_reset_and_hazards.md R285 on a flat bus: what the harness has set when it calls Tick. -/
def Obligations.HarnessSeedsTheState : Prop :=
  ∀ (ram : List (Addr × Byte)) (addr : Addr) (v : Byte) (pc : Addr) (a x y sp p : Byte) (s : State),
    s.busKind = .flat →
    let t := harnessStart (ram ++ [(addr, v)]) pc a x y sp p s
    t.pc = pc ∧ t.a = a ∧ t.x = x ∧ t.y = y ∧ t.sp = sp ∧ t.p = p ∧ t.cycles = 0 ∧
    t.mem.read addr.toNat = v ∧
    ∀ other : Addr, other ≠ addr → (∀ c ∈ ram, c.1 ≠ other) →
      t.mem.read other.toNat = s.mem.read other.toNat
end

