-- ==== Sys2Proof/Laws/State.lean ====
section
/-!
SUPPORT. One lemma per field per update of State, each true by rfl, so that no later proof unfolds a
record update; and what the bus answers after an update that leaves the bus alone.
-/

namespace Sys2Proof.Machine

@[simp] theorem State.setA_a (s : State) (v : Byte) : (s.setA v).a = v := by rfl
@[simp] theorem State.setA_x (s : State) (v : Byte) : (s.setA v).x = s.x := by rfl
@[simp] theorem State.setA_y (s : State) (v : Byte) : (s.setA v).y = s.y := by rfl
@[simp] theorem State.setA_sp (s : State) (v : Byte) : (s.setA v).sp = s.sp := by rfl
@[simp] theorem State.setA_p (s : State) (v : Byte) : (s.setA v).p = s.p := by rfl
@[simp] theorem State.setA_pc (s : State) (v : Byte) : (s.setA v).pc = s.pc := by rfl
@[simp] theorem State.setA_cycles (s : State) (v : Byte) : (s.setA v).cycles = s.cycles := by rfl
@[simp] theorem State.setA_cpcp (s : State) (v : Byte) : (s.setA v).cpcp = s.cpcp := by rfl
@[simp] theorem State.setA_busKind (s : State) (v : Byte) : (s.setA v).busKind = s.busKind := by rfl
@[simp] theorem State.setA_mem (s : State) (v : Byte) : (s.setA v).mem = s.mem := by rfl
@[simp] theorem State.setA_trace (s : State) (v : Byte) : (s.setA v).trace = s.trace := by rfl
@[simp] theorem State.setA_faults (s : State) (v : Byte) : (s.setA v).faults = s.faults := by rfl
@[simp] theorem State.setA_busByte (s : State) (v : Byte) (addr : Addr) : (s.setA v).busByte addr = s.busByte addr := by rfl

@[simp] theorem State.setX_a (s : State) (v : Byte) : (s.setX v).a = s.a := by rfl
@[simp] theorem State.setX_x (s : State) (v : Byte) : (s.setX v).x = v := by rfl
@[simp] theorem State.setX_y (s : State) (v : Byte) : (s.setX v).y = s.y := by rfl
@[simp] theorem State.setX_sp (s : State) (v : Byte) : (s.setX v).sp = s.sp := by rfl
@[simp] theorem State.setX_p (s : State) (v : Byte) : (s.setX v).p = s.p := by rfl
@[simp] theorem State.setX_pc (s : State) (v : Byte) : (s.setX v).pc = s.pc := by rfl
@[simp] theorem State.setX_cycles (s : State) (v : Byte) : (s.setX v).cycles = s.cycles := by rfl
@[simp] theorem State.setX_cpcp (s : State) (v : Byte) : (s.setX v).cpcp = s.cpcp := by rfl
@[simp] theorem State.setX_busKind (s : State) (v : Byte) : (s.setX v).busKind = s.busKind := by rfl
@[simp] theorem State.setX_mem (s : State) (v : Byte) : (s.setX v).mem = s.mem := by rfl
@[simp] theorem State.setX_trace (s : State) (v : Byte) : (s.setX v).trace = s.trace := by rfl
@[simp] theorem State.setX_faults (s : State) (v : Byte) : (s.setX v).faults = s.faults := by rfl
@[simp] theorem State.setX_busByte (s : State) (v : Byte) (addr : Addr) : (s.setX v).busByte addr = s.busByte addr := by rfl

@[simp] theorem State.setY_a (s : State) (v : Byte) : (s.setY v).a = s.a := by rfl
@[simp] theorem State.setY_x (s : State) (v : Byte) : (s.setY v).x = s.x := by rfl
@[simp] theorem State.setY_y (s : State) (v : Byte) : (s.setY v).y = v := by rfl
@[simp] theorem State.setY_sp (s : State) (v : Byte) : (s.setY v).sp = s.sp := by rfl
@[simp] theorem State.setY_p (s : State) (v : Byte) : (s.setY v).p = s.p := by rfl
@[simp] theorem State.setY_pc (s : State) (v : Byte) : (s.setY v).pc = s.pc := by rfl
@[simp] theorem State.setY_cycles (s : State) (v : Byte) : (s.setY v).cycles = s.cycles := by rfl
@[simp] theorem State.setY_cpcp (s : State) (v : Byte) : (s.setY v).cpcp = s.cpcp := by rfl
@[simp] theorem State.setY_busKind (s : State) (v : Byte) : (s.setY v).busKind = s.busKind := by rfl
@[simp] theorem State.setY_mem (s : State) (v : Byte) : (s.setY v).mem = s.mem := by rfl
@[simp] theorem State.setY_trace (s : State) (v : Byte) : (s.setY v).trace = s.trace := by rfl
@[simp] theorem State.setY_faults (s : State) (v : Byte) : (s.setY v).faults = s.faults := by rfl
@[simp] theorem State.setY_busByte (s : State) (v : Byte) (addr : Addr) : (s.setY v).busByte addr = s.busByte addr := by rfl

@[simp] theorem State.setSp_a (s : State) (v : Byte) : (s.setSp v).a = s.a := by rfl
@[simp] theorem State.setSp_x (s : State) (v : Byte) : (s.setSp v).x = s.x := by rfl
@[simp] theorem State.setSp_y (s : State) (v : Byte) : (s.setSp v).y = s.y := by rfl
@[simp] theorem State.setSp_sp (s : State) (v : Byte) : (s.setSp v).sp = v := by rfl
@[simp] theorem State.setSp_p (s : State) (v : Byte) : (s.setSp v).p = s.p := by rfl
@[simp] theorem State.setSp_pc (s : State) (v : Byte) : (s.setSp v).pc = s.pc := by rfl
@[simp] theorem State.setSp_cycles (s : State) (v : Byte) : (s.setSp v).cycles = s.cycles := by rfl
@[simp] theorem State.setSp_cpcp (s : State) (v : Byte) : (s.setSp v).cpcp = s.cpcp := by rfl
@[simp] theorem State.setSp_busKind (s : State) (v : Byte) : (s.setSp v).busKind = s.busKind := by rfl
@[simp] theorem State.setSp_mem (s : State) (v : Byte) : (s.setSp v).mem = s.mem := by rfl
@[simp] theorem State.setSp_trace (s : State) (v : Byte) : (s.setSp v).trace = s.trace := by rfl
@[simp] theorem State.setSp_faults (s : State) (v : Byte) : (s.setSp v).faults = s.faults := by rfl
@[simp] theorem State.setSp_busByte (s : State) (v : Byte) (addr : Addr) : (s.setSp v).busByte addr = s.busByte addr := by rfl

@[simp] theorem State.setP_a (s : State) (v : Byte) : (s.setP v).a = s.a := by rfl
@[simp] theorem State.setP_x (s : State) (v : Byte) : (s.setP v).x = s.x := by rfl
@[simp] theorem State.setP_y (s : State) (v : Byte) : (s.setP v).y = s.y := by rfl
@[simp] theorem State.setP_sp (s : State) (v : Byte) : (s.setP v).sp = s.sp := by rfl
@[simp] theorem State.setP_p (s : State) (v : Byte) : (s.setP v).p = v := by rfl
@[simp] theorem State.setP_pc (s : State) (v : Byte) : (s.setP v).pc = s.pc := by rfl
@[simp] theorem State.setP_cycles (s : State) (v : Byte) : (s.setP v).cycles = s.cycles := by rfl
@[simp] theorem State.setP_cpcp (s : State) (v : Byte) : (s.setP v).cpcp = s.cpcp := by rfl
@[simp] theorem State.setP_busKind (s : State) (v : Byte) : (s.setP v).busKind = s.busKind := by rfl
@[simp] theorem State.setP_mem (s : State) (v : Byte) : (s.setP v).mem = s.mem := by rfl
@[simp] theorem State.setP_trace (s : State) (v : Byte) : (s.setP v).trace = s.trace := by rfl
@[simp] theorem State.setP_faults (s : State) (v : Byte) : (s.setP v).faults = s.faults := by rfl
@[simp] theorem State.setP_busByte (s : State) (v : Byte) (addr : Addr) : (s.setP v).busByte addr = s.busByte addr := by rfl

@[simp] theorem State.setPc_a (s : State) (v : Addr) : (s.setPc v).a = s.a := by rfl
@[simp] theorem State.setPc_x (s : State) (v : Addr) : (s.setPc v).x = s.x := by rfl
@[simp] theorem State.setPc_y (s : State) (v : Addr) : (s.setPc v).y = s.y := by rfl
@[simp] theorem State.setPc_sp (s : State) (v : Addr) : (s.setPc v).sp = s.sp := by rfl
@[simp] theorem State.setPc_p (s : State) (v : Addr) : (s.setPc v).p = s.p := by rfl
@[simp] theorem State.setPc_pc (s : State) (v : Addr) : (s.setPc v).pc = v := by rfl
@[simp] theorem State.setPc_cycles (s : State) (v : Addr) : (s.setPc v).cycles = s.cycles := by rfl
@[simp] theorem State.setPc_cpcp (s : State) (v : Addr) : (s.setPc v).cpcp = s.cpcp := by rfl
@[simp] theorem State.setPc_busKind (s : State) (v : Addr) : (s.setPc v).busKind = s.busKind := by rfl
@[simp] theorem State.setPc_mem (s : State) (v : Addr) : (s.setPc v).mem = s.mem := by rfl
@[simp] theorem State.setPc_trace (s : State) (v : Addr) : (s.setPc v).trace = s.trace := by rfl
@[simp] theorem State.setPc_faults (s : State) (v : Addr) : (s.setPc v).faults = s.faults := by rfl
@[simp] theorem State.setPc_busByte (s : State) (v : Addr) (addr : Addr) : (s.setPc v).busByte addr = s.busByte addr := by rfl

@[simp] theorem State.setCycles_a (s : State) (v : Cycles) : (s.setCycles v).a = s.a := by rfl
@[simp] theorem State.setCycles_x (s : State) (v : Cycles) : (s.setCycles v).x = s.x := by rfl
@[simp] theorem State.setCycles_y (s : State) (v : Cycles) : (s.setCycles v).y = s.y := by rfl
@[simp] theorem State.setCycles_sp (s : State) (v : Cycles) : (s.setCycles v).sp = s.sp := by rfl
@[simp] theorem State.setCycles_p (s : State) (v : Cycles) : (s.setCycles v).p = s.p := by rfl
@[simp] theorem State.setCycles_pc (s : State) (v : Cycles) : (s.setCycles v).pc = s.pc := by rfl
@[simp] theorem State.setCycles_cycles (s : State) (v : Cycles) : (s.setCycles v).cycles = v := by rfl
@[simp] theorem State.setCycles_cpcp (s : State) (v : Cycles) : (s.setCycles v).cpcp = s.cpcp := by rfl
@[simp] theorem State.setCycles_busKind (s : State) (v : Cycles) : (s.setCycles v).busKind = s.busKind := by rfl
@[simp] theorem State.setCycles_mem (s : State) (v : Cycles) : (s.setCycles v).mem = s.mem := by rfl
@[simp] theorem State.setCycles_trace (s : State) (v : Cycles) : (s.setCycles v).trace = s.trace := by rfl
@[simp] theorem State.setCycles_faults (s : State) (v : Cycles) : (s.setCycles v).faults = s.faults := by rfl
@[simp] theorem State.setCycles_busByte (s : State) (v : Cycles) (addr : Addr) : (s.setCycles v).busByte addr = s.busByte addr := by rfl

@[simp] theorem State.setCpcp_a (s : State) (v : Bool) : (s.setCpcp v).a = s.a := by rfl
@[simp] theorem State.setCpcp_x (s : State) (v : Bool) : (s.setCpcp v).x = s.x := by rfl
@[simp] theorem State.setCpcp_y (s : State) (v : Bool) : (s.setCpcp v).y = s.y := by rfl
@[simp] theorem State.setCpcp_sp (s : State) (v : Bool) : (s.setCpcp v).sp = s.sp := by rfl
@[simp] theorem State.setCpcp_p (s : State) (v : Bool) : (s.setCpcp v).p = s.p := by rfl
@[simp] theorem State.setCpcp_pc (s : State) (v : Bool) : (s.setCpcp v).pc = s.pc := by rfl
@[simp] theorem State.setCpcp_cycles (s : State) (v : Bool) : (s.setCpcp v).cycles = s.cycles := by rfl
@[simp] theorem State.setCpcp_cpcp (s : State) (v : Bool) : (s.setCpcp v).cpcp = v := by rfl
@[simp] theorem State.setCpcp_busKind (s : State) (v : Bool) : (s.setCpcp v).busKind = s.busKind := by rfl
@[simp] theorem State.setCpcp_mem (s : State) (v : Bool) : (s.setCpcp v).mem = s.mem := by rfl
@[simp] theorem State.setCpcp_trace (s : State) (v : Bool) : (s.setCpcp v).trace = s.trace := by rfl
@[simp] theorem State.setCpcp_faults (s : State) (v : Bool) : (s.setCpcp v).faults = s.faults := by rfl
@[simp] theorem State.setCpcp_busByte (s : State) (v : Bool) (addr : Addr) : (s.setCpcp v).busByte addr = s.busByte addr := by rfl

@[simp] theorem State.advancePc_a (s : State) : (s.advancePc).a = s.a := by rfl
@[simp] theorem State.advancePc_x (s : State) : (s.advancePc).x = s.x := by rfl
@[simp] theorem State.advancePc_y (s : State) : (s.advancePc).y = s.y := by rfl
@[simp] theorem State.advancePc_sp (s : State) : (s.advancePc).sp = s.sp := by rfl
@[simp] theorem State.advancePc_p (s : State) : (s.advancePc).p = s.p := by rfl
@[simp] theorem State.advancePc_pc (s : State) : (s.advancePc).pc = s.pc + 1 := by rfl
@[simp] theorem State.advancePc_cycles (s : State) : (s.advancePc).cycles = s.cycles := by rfl
@[simp] theorem State.advancePc_cpcp (s : State) : (s.advancePc).cpcp = s.cpcp := by rfl
@[simp] theorem State.advancePc_busKind (s : State) : (s.advancePc).busKind = s.busKind := by rfl
@[simp] theorem State.advancePc_mem (s : State) : (s.advancePc).mem = s.mem := by rfl
@[simp] theorem State.advancePc_trace (s : State) : (s.advancePc).trace = s.trace := by rfl
@[simp] theorem State.advancePc_faults (s : State) : (s.advancePc).faults = s.faults := by rfl
@[simp] theorem State.advancePc_busByte (s : State) (addr : Addr) : (s.advancePc).busByte addr = s.busByte addr := by rfl

@[simp] theorem State.addCycles_a (s : State) (n : Nat) : (s.addCycles n).a = s.a := by rfl
@[simp] theorem State.addCycles_x (s : State) (n : Nat) : (s.addCycles n).x = s.x := by rfl
@[simp] theorem State.addCycles_y (s : State) (n : Nat) : (s.addCycles n).y = s.y := by rfl
@[simp] theorem State.addCycles_sp (s : State) (n : Nat) : (s.addCycles n).sp = s.sp := by rfl
@[simp] theorem State.addCycles_p (s : State) (n : Nat) : (s.addCycles n).p = s.p := by rfl
@[simp] theorem State.addCycles_pc (s : State) (n : Nat) : (s.addCycles n).pc = s.pc := by rfl
@[simp] theorem State.addCycles_cycles (s : State) (n : Nat) : (s.addCycles n).cycles = s.cycles + BitVec.ofNat 64 n := by rfl
@[simp] theorem State.addCycles_cpcp (s : State) (n : Nat) : (s.addCycles n).cpcp = s.cpcp := by rfl
@[simp] theorem State.addCycles_busKind (s : State) (n : Nat) : (s.addCycles n).busKind = s.busKind := by rfl
@[simp] theorem State.addCycles_mem (s : State) (n : Nat) : (s.addCycles n).mem = s.mem := by rfl
@[simp] theorem State.addCycles_trace (s : State) (n : Nat) : (s.addCycles n).trace = s.trace := by rfl
@[simp] theorem State.addCycles_faults (s : State) (n : Nat) : (s.addCycles n).faults = s.faults := by rfl
@[simp] theorem State.addCycles_busByte (s : State) (n : Nat) (addr : Addr) : (s.addCycles n).busByte addr = s.busByte addr := by rfl

@[simp] theorem State.recordFault_a (s : State) (op : Byte) : (s.recordFault op).a = s.a := by rfl
@[simp] theorem State.recordFault_x (s : State) (op : Byte) : (s.recordFault op).x = s.x := by rfl
@[simp] theorem State.recordFault_y (s : State) (op : Byte) : (s.recordFault op).y = s.y := by rfl
@[simp] theorem State.recordFault_sp (s : State) (op : Byte) : (s.recordFault op).sp = s.sp := by rfl
@[simp] theorem State.recordFault_p (s : State) (op : Byte) : (s.recordFault op).p = s.p := by rfl
@[simp] theorem State.recordFault_pc (s : State) (op : Byte) : (s.recordFault op).pc = s.pc := by rfl
@[simp] theorem State.recordFault_cycles (s : State) (op : Byte) : (s.recordFault op).cycles = s.cycles := by rfl
@[simp] theorem State.recordFault_cpcp (s : State) (op : Byte) : (s.recordFault op).cpcp = s.cpcp := by rfl
@[simp] theorem State.recordFault_busKind (s : State) (op : Byte) : (s.recordFault op).busKind = s.busKind := by rfl
@[simp] theorem State.recordFault_mem (s : State) (op : Byte) : (s.recordFault op).mem = s.mem := by rfl
@[simp] theorem State.recordFault_trace (s : State) (op : Byte) : (s.recordFault op).trace = s.trace := by rfl
@[simp] theorem State.recordFault_faults (s : State) (op : Byte) : (s.recordFault op).faults = op :: s.faults := by rfl
@[simp] theorem State.recordFault_busByte (s : State) (op : Byte) (addr : Addr) : (s.recordFault op).busByte addr = s.busByte addr := by rfl

@[simp] theorem State.afterRead_a (s : State) (ad : Addr) : (s.afterRead ad).a = s.a := by rfl
@[simp] theorem State.afterRead_x (s : State) (ad : Addr) : (s.afterRead ad).x = s.x := by rfl
@[simp] theorem State.afterRead_y (s : State) (ad : Addr) : (s.afterRead ad).y = s.y := by rfl
@[simp] theorem State.afterRead_sp (s : State) (ad : Addr) : (s.afterRead ad).sp = s.sp := by rfl
@[simp] theorem State.afterRead_p (s : State) (ad : Addr) : (s.afterRead ad).p = s.p := by rfl
@[simp] theorem State.afterRead_pc (s : State) (ad : Addr) : (s.afterRead ad).pc = s.pc := by rfl
@[simp] theorem State.afterRead_cycles (s : State) (ad : Addr) : (s.afterRead ad).cycles = s.cycles := by rfl
@[simp] theorem State.afterRead_cpcp (s : State) (ad : Addr) : (s.afterRead ad).cpcp = s.cpcp := by rfl
@[simp] theorem State.afterRead_busKind (s : State) (ad : Addr) : (s.afterRead ad).busKind = s.busKind := by rfl
@[simp] theorem State.afterRead_mem (s : State) (ad : Addr) : (s.afterRead ad).mem = s.mem := by rfl
@[simp] theorem State.afterRead_trace (s : State) (ad : Addr) : (s.afterRead ad).trace = .read ad (s.busByte ad) :: s.trace := by rfl
@[simp] theorem State.afterRead_faults (s : State) (ad : Addr) : (s.afterRead ad).faults = s.faults := by rfl

@[simp] theorem State.busWrite_a (s : State) (ad : Addr) (v : Byte) : (s.busWrite ad v).a = s.a := by rfl
@[simp] theorem State.busWrite_x (s : State) (ad : Addr) (v : Byte) : (s.busWrite ad v).x = s.x := by rfl
@[simp] theorem State.busWrite_y (s : State) (ad : Addr) (v : Byte) : (s.busWrite ad v).y = s.y := by rfl
@[simp] theorem State.busWrite_sp (s : State) (ad : Addr) (v : Byte) : (s.busWrite ad v).sp = s.sp := by rfl
@[simp] theorem State.busWrite_p (s : State) (ad : Addr) (v : Byte) : (s.busWrite ad v).p = s.p := by rfl
@[simp] theorem State.busWrite_pc (s : State) (ad : Addr) (v : Byte) : (s.busWrite ad v).pc = s.pc := by rfl
@[simp] theorem State.busWrite_cycles (s : State) (ad : Addr) (v : Byte) : (s.busWrite ad v).cycles = s.cycles := by rfl
@[simp] theorem State.busWrite_cpcp (s : State) (ad : Addr) (v : Byte) : (s.busWrite ad v).cpcp = s.cpcp := by rfl
@[simp] theorem State.busWrite_busKind (s : State) (ad : Addr) (v : Byte) : (s.busWrite ad v).busKind = s.busKind := by rfl
@[simp] theorem State.busWrite_mem (s : State) (ad : Addr) (v : Byte) : (s.busWrite ad v).mem = s.memAfterWrite ad v := by rfl
@[simp] theorem State.busWrite_trace (s : State) (ad : Addr) (v : Byte) : (s.busWrite ad v).trace = .write ad v :: s.trace := by rfl
@[simp] theorem State.busWrite_faults (s : State) (ad : Addr) (v : Byte) : (s.busWrite ad v).faults = s.faults := by rfl

/-- The bus does not look at cpcp: setting it commutes with a read and a write. -/
@[simp] theorem State.setCpcp_afterRead (s : State) (b : Bool) (addr : Addr) :
    (s.setCpcp b).afterRead addr = (s.afterRead addr).setCpcp b := by rfl
@[simp] theorem State.setCpcp_busWrite (s : State) (b : Bool) (addr : Addr) (v : Byte) :
    (s.setCpcp b).busWrite addr v = (s.busWrite addr v).setCpcp b := by rfl
@[simp] theorem State.setCpcp_memAfterWrite (s : State) (b : Bool) (addr : Addr) (v : Byte) :
    (s.setCpcp b).memAfterWrite addr v = s.memAfterWrite addr v := by rfl
@[simp] theorem State.busRead_fst (s : State) (addr : Addr) : (s.busRead addr).1 = s.busByte addr := by rfl
@[simp] theorem State.busRead_snd (s : State) (addr : Addr) : (s.busRead addr).2 = s.afterRead addr := by rfl
@[simp] theorem State.fetchByte_fst (s : State) : s.fetchByte.1 = s.busByte s.pc := by rfl
@[simp] theorem State.fetchByte_snd (s : State) : s.fetchByte.2 = (s.afterRead s.pc).advancePc := by rfl

end Sys2Proof.Machine
end

