-- ==== Sys2Proof/Laws/Memory.lean ====
section
/-!
SUPPORT. The laws of the flat memory: a read after a write, and that every operation keeps the
canonical form.
-/

namespace Sys2Proof.Machine

theorem Memory.read_erase_same (m : Memory) (k : Nat) : (m.erase k).read k = Config.unlistedByte := by
  induction m with
  | nil => rfl
  | cons c rest ih =>
    obtain ⟨c, v⟩ := c
    simp only [Memory.erase]
    split
    · exact ih
    · next hc => simp only [Memory.read, if_neg hc]; exact ih

theorem Memory.read_erase_of_ne (m : Memory) {k j : Nat} (hj : j ≠ k) :
    (m.erase k).read j = m.read j := by
  induction m with
  | nil => rfl
  | cons c rest ih =>
    obtain ⟨c, v⟩ := c
    simp only [Memory.erase]
    split
    · next hc => subst hc; rw [ih]; simp [Memory.read, Ne.symm hj]
    · simp only [Memory.read]; split <;> [rfl; exact ih]

theorem Memory.not_mem_erase (m : Memory) (k : Nat) : ∀ c ∈ m.erase k, c.1 ≠ k := by
  induction m with
  | nil => simp [Memory.erase]
  | cons c rest ih =>
    obtain ⟨c, v⟩ := c
    simp only [Memory.erase]
    split
    · exact ih
    · next hc => simpa using ⟨hc, fun a b h => ih (a, b) h⟩

theorem Memory.read_insert_same (m : Memory) {k : Nat} (v : Byte) (h : ∀ c ∈ m, c.1 ≠ k) :
    (m.insert k v).read k = v := by
  induction m with
  | nil => simp [Memory.insert, Memory.read]
  | cons c rest ih =>
    obtain ⟨c, u⟩ := c
    simp only [Memory.insert]
    split
    · simp [Memory.read]
    · have hc : c ≠ k := h (c, u) (by simp)
      simp only [Memory.read, if_neg hc]
      exact ih (fun d hd => h d (by simp [hd]))

theorem Memory.read_insert_of_ne (m : Memory) {k j : Nat} (v : Byte) (hj : j ≠ k) :
    (m.insert k v).read j = m.read j := by
  induction m with
  | nil => simp [Memory.insert, Memory.read, Ne.symm hj]
  | cons c rest ih =>
    obtain ⟨c, u⟩ := c
    simp only [Memory.insert]
    split
    · simp [Memory.read, Ne.symm hj]
    · simp only [Memory.read]; split <;> [rfl; exact ih]

/-- Read after write, at the same address. -/
@[simp] theorem Memory.read_write_same (m : Memory) (k : Nat) (v : Byte) : (m.write k v).read k = v := by
  unfold Memory.write
  split
  · next hv => rw [hv]; exact Memory.read_erase_same m k
  · exact Memory.read_insert_same _ v (Memory.not_mem_erase m k)

/-- Read after write, at another address. -/
theorem Memory.read_write_of_ne (m : Memory) {k j : Nat} (v : Byte) (hj : j ≠ k) :
    (m.write k v).read j = m.read j := by
  unfold Memory.write
  split
  · exact Memory.read_erase_of_ne m hj
  · rw [Memory.read_insert_of_ne _ v hj, Memory.read_erase_of_ne m hj]

theorem Memory.wfFrom_mono {lo lo' : Nat} {m : Memory} (h : Memory.wfFrom lo m = true) (hl : lo' ≤ lo) :
    Memory.wfFrom lo' m = true := by
  cases m with
  | nil => rfl
  | cons c rest =>
    obtain ⟨c, v⟩ := c
    simp only [Memory.wfFrom, Bool.and_eq_true, decide_eq_true_eq] at h ⊢
    exact ⟨⟨⟨by omega, h.1.1.2⟩, h.1.2⟩, h.2⟩

theorem Memory.erase_wfFrom {lo : Nat} {m : Memory} (h : Memory.wfFrom lo m = true) (k : Nat) :
    Memory.wfFrom lo (m.erase k) = true := by
  induction m generalizing lo with
  | nil => rfl
  | cons c rest ih =>
    obtain ⟨c, v⟩ := c
    simp only [Memory.wfFrom, Bool.and_eq_true, decide_eq_true_eq] at h
    simp only [Memory.erase]
    split
    · exact Memory.wfFrom_mono (ih h.2) (by omega)
    · simp only [Memory.wfFrom, Bool.and_eq_true, decide_eq_true_eq]
      exact ⟨h.1, ih h.2⟩

theorem Memory.insert_wfFrom {lo k : Nat} {v : Byte} {m : Memory} (h : Memory.wfFrom lo m = true)
    (hl : lo ≤ k) (hk : k < 65536) (hv : v ≠ Config.unlistedByte) (hm : ∀ c ∈ m, c.1 ≠ k) :
    Memory.wfFrom lo (m.insert k v) = true := by
  induction m generalizing lo with
  | nil => simp [Memory.insert, Memory.wfFrom, hl, hk, hv]
  | cons c rest ih =>
    obtain ⟨c, u⟩ := c
    have hc : c ≠ k := hm (c, u) (by simp)
    simp only [Memory.wfFrom, Bool.and_eq_true, decide_eq_true_eq] at h
    simp only [Memory.insert]
    split
    · simp only [Memory.wfFrom, Bool.and_eq_true, decide_eq_true_eq]
      exact ⟨⟨⟨hl, hk⟩, hv⟩, ⟨⟨by omega, h.1.1.2⟩, h.1.2⟩, h.2⟩
    · simp only [Memory.wfFrom, Bool.and_eq_true, decide_eq_true_eq]
      exact ⟨h.1, ih h.2 (by omega) (fun d hd => hm d (by simp [hd]))⟩

/-- A write inside the address space keeps the canonical form. -/
theorem Memory.write_wf {m : Memory} (h : m.wf = true) {k : Nat} (hk : k < 65536) (v : Byte) :
    (m.write k v).wf = true := by
  unfold Memory.write
  split
  · exact Memory.erase_wfFrom h k
  · next hv =>
    exact Memory.insert_wfFrom (Memory.erase_wfFrom h k) (Nat.zero_le k) hk hv (Memory.not_mem_erase m k)

theorem placeBytes_wf {bytes : List Byte} {addr : Addr} {m : Memory} (h : m.wf = true) :
    (placeBytes bytes addr m).wf = true := by
  induction bytes generalizing addr m with
  | nil => exact h
  | cons b rest ih => exact ih (Memory.write_wf h addr.isLt b)

theorem State.busWrite_wf {s : State} (h : s.mem.wf = true) (addr : Addr) (v : Byte) :
    (s.busWrite addr v).mem.wf = true := by
  simp only [State.busWrite_mem, State.memAfterWrite]
  split
  · exact Memory.write_wf h addr.isLt v
  · exact h

theorem State.withFetchWord_wf {s : State} (h : s.mem.wf = true) (nbits w : Nat) :
    (s.withFetchWord nbits w).mem.wf = true := placeBytes_wf h

theorem State.reset_wf : State.reset.mem.wf = true := rfl

end Sys2Proof.Machine
end

