-- ==== Sys2Proof/Laws/Ops.lean ====
section
/-!
SUPPORT. One lemma per shared operation: what the bus answers after a write, what address resolution
can do, that every instruction answers a next state, what a step can be.
-/

namespace Sys2Proof.Machine

/-! ### The flat bus -/

theorem State.busByte_flat {s : State} (h : s.busKind = .flat) (addr : Addr) :
    s.busByte addr = s.mem.read addr.toNat := by simp [State.busByte, h]

theorem State.memAfterWrite_flat {s : State} (h : s.busKind = .flat) (addr : Addr) (v : Byte) :
    s.memAfterWrite addr v = s.mem.write addr.toNat v := by simp [State.memAfterWrite, h]

theorem State.memAfterWrite_open {s : State} (h : s.busKind = .openBus) (addr : Addr) (v : Byte) :
    s.memAfterWrite addr v = s.mem := by simp [State.memAfterWrite, h]

/-- Every other byte of memory stays, whatever the bus. -/
theorem State.read_memAfterWrite_of_ne (s : State) {addr other : Addr} (v : Byte) (h : other ≠ addr) :
    (s.memAfterWrite addr v).read other.toNat = s.mem.read other.toNat := by
  unfold State.memAfterWrite
  split
  · exact Memory.read_write_of_ne _ v (fun e => h (BitVec.eq_of_toNat_eq e))
  · rfl

theorem State.memAfterWrite_wf {s : State} (h : s.mem.wf = true) (addr : Addr) (v : Byte) :
    (s.memAfterWrite addr v).wf = true := State.busWrite_wf h addr v

/-! ### Address resolution reads the bus and counts a page crossing; it does nothing else -/

/-- What an operand form may do to the state (40_engine_addressing.md R110): the history grows,
`cycles` may; everything else stays. -/
structure ReadsOnly (s t : State) : Prop where
  a : t.a = s.a
  x : t.x = s.x
  y : t.y = s.y
  sp : t.sp = s.sp
  p : t.p = s.p
  pc : t.pc = s.pc
  cpcp : t.cpcp = s.cpcp
  busKind : t.busKind = s.busKind
  mem : t.mem = s.mem
  faults : t.faults = s.faults

theorem ReadsOnly.refl (s : State) : ReadsOnly s s := ⟨rfl, rfl, rfl, rfl, rfl, rfl, rfl, rfl, rfl, rfl⟩

theorem ReadsOnly.trans {s t u : State} (h : ReadsOnly s t) (k : ReadsOnly t u) : ReadsOnly s u :=
  ⟨k.a.trans h.a, k.x.trans h.x, k.y.trans h.y, k.sp.trans h.sp, k.p.trans h.p, k.pc.trans h.pc,
    k.cpcp.trans h.cpcp, k.busKind.trans h.busKind, k.mem.trans h.mem, k.faults.trans h.faults⟩

theorem afterRead_readsOnly (s : State) (addr : Addr) : ReadsOnly s (s.afterRead addr) :=
  ⟨rfl, rfl, rfl, rfl, rfl, rfl, rfl, rfl, rfl, rfl⟩

theorem pageCross_readsOnly (base ea : Addr) (s : State) : ReadsOnly s (pageCross base ea s) := by
  unfold pageCross
  split <;> exact ⟨rfl, rfl, rfl, rfl, rfl, rfl, rfl, rfl, rfl, rfl⟩

@[simp] theorem pageCross_a (base ea : Addr) (s : State) : (pageCross base ea s).a = s.a :=
  (pageCross_readsOnly base ea s).a
@[simp] theorem pageCross_x (base ea : Addr) (s : State) : (pageCross base ea s).x = s.x :=
  (pageCross_readsOnly base ea s).x
@[simp] theorem pageCross_y (base ea : Addr) (s : State) : (pageCross base ea s).y = s.y :=
  (pageCross_readsOnly base ea s).y
@[simp] theorem pageCross_sp (base ea : Addr) (s : State) : (pageCross base ea s).sp = s.sp :=
  (pageCross_readsOnly base ea s).sp
@[simp] theorem pageCross_p (base ea : Addr) (s : State) : (pageCross base ea s).p = s.p :=
  (pageCross_readsOnly base ea s).p
@[simp] theorem pageCross_pc (base ea : Addr) (s : State) : (pageCross base ea s).pc = s.pc :=
  (pageCross_readsOnly base ea s).pc
@[simp] theorem pageCross_cpcp (base ea : Addr) (s : State) : (pageCross base ea s).cpcp = s.cpcp :=
  (pageCross_readsOnly base ea s).cpcp
@[simp] theorem pageCross_busKind (base ea : Addr) (s : State) : (pageCross base ea s).busKind = s.busKind :=
  (pageCross_readsOnly base ea s).busKind
@[simp] theorem pageCross_mem (base ea : Addr) (s : State) : (pageCross base ea s).mem = s.mem :=
  (pageCross_readsOnly base ea s).mem
@[simp] theorem pageCross_faults (base ea : Addr) (s : State) : (pageCross base ea s).faults = s.faults :=
  (pageCross_readsOnly base ea s).faults

@[simp] theorem pageCross_trace (base ea : Addr) (s : State) : (pageCross base ea s).trace = s.trace := by
  unfold pageCross
  split <;> rfl

@[simp] theorem pageCross_busByte (base ea : Addr) (s : State) (addr : Addr) :
    (pageCross base ea s).busByte addr = s.busByte addr := by
  unfold pageCross
  split <;> rfl

theorem pageCross_cycles (base ea : Addr) (s : State) :
    (pageCross base ea s).cycles =
      if s.cpcp = true ∧ page ea ≠ page base then s.cycles + 1 else s.cycles := by
  unfold pageCross
  split <;> rfl

/-- An entry that does not honour the penalty pays none (30_encoding.md R82). -/
@[simp] theorem pageCross_not_honoured (base ea : Addr) {s : State} (h : s.cpcp = false) :
    pageCross base ea s = s := by simp [pageCross, h]

theorem readPointer_readsOnly (z : Byte) (s : State) : ReadsOnly s (readPointer z s).2 :=
  (afterRead_readsOnly s _).trans (afterRead_readsOnly _ _)

theorem readPointer_setCpcp (z : Byte) (s : State) (b : Bool) :
    readPointer z (s.setCpcp b) = ((readPointer z s).1, (readPointer z s).2.setCpcp b) := rfl

theorem eaIndexed_readsOnly (base : Addr) (index : Byte) (s : State) :
    ReadsOnly s (eaIndexed base index s).2 := pageCross_readsOnly _ _ _

theorem eaAbsx_readsOnly (base : Addr) (s : State) : ReadsOnly s (eaAbsx base s).2 :=
  eaIndexed_readsOnly _ _ _

theorem eaAbsy_readsOnly (base : Addr) (s : State) : ReadsOnly s (eaAbsy base s).2 :=
  eaIndexed_readsOnly _ _ _

theorem eaIndx_readsOnly (zp : Byte) (s : State) : ReadsOnly s (eaIndx zp s).2 :=
  readPointer_readsOnly _ _

theorem eaIndy_readsOnly (zp : Byte) (s : State) : ReadsOnly s (eaIndy zp s).2 :=
  (readPointer_readsOnly zp s).trans (eaIndexed_readsOnly _ _ _)

theorem eaInd_readsOnly (ptr : Addr) (s : State) : ReadsOnly s (eaInd ptr s).2 :=
  (afterRead_readsOnly s _).trans (afterRead_readsOnly _ _)

theorem page_eq_append (w : Addr) : page w = hiByte w ++ (0#8 : Byte) := by
  apply BitVec.eq_of_getLsbD_eq
  intro i hi
  simp only [page, hiByte, BitVec.getLsbD_and, BitVec.getLsbD_append, BitVec.getLsbD_extractLsb']
  interval_cases i <;> simp
theorem hiByte_page (w : Addr) : hiByte (page w) = hiByte w := by
  rw [page_eq_append]
  apply BitVec.eq_of_getLsbD_eq
  intro i hi
  simp only [hiByte, BitVec.getLsbD_append, BitVec.getLsbD_extractLsb']
  interval_cases i <;> simp
/-- The two tests for a page change say the same: masked words or high bytes. -/
theorem page_eq_iff (u v : Addr) : page u = page v ↔ hiByte u = hiByte v :=
  ⟨fun h => by rw [← hiByte_page u, h, hiByte_page], fun h => by rw [page_eq_append, h, page_eq_append]⟩

/-! ### Bytes and words -/

@[simp] theorem concat_hiByte_loByte (w : Addr) : concat (hiByte w) (loByte w) = w := by
  apply BitVec.eq_of_getLsbD_eq
  intro i hi
  simp only [concat, hiByte, loByte, BitVec.getLsbD_append, BitVec.getLsbD_extractLsb']
  interval_cases i <;> simp

@[simp] theorem loByte_concat (hi lo : Byte) : loByte (concat hi lo) = lo := by
  apply BitVec.eq_of_getLsbD_eq
  intro i h
  simp only [concat, loByte, BitVec.getLsbD_append, BitVec.getLsbD_extractLsb']
  interval_cases i <;> simp

@[simp] theorem hiByte_concat (hi lo : Byte) : hiByte (concat hi lo) = hi := by
  apply BitVec.eq_of_getLsbD_eq
  intro i h
  simp only [concat, hiByte, BitVec.getLsbD_append, BitVec.getLsbD_extractLsb']
  interval_cases i <;> simp
/-! ### Every instruction answers a next state -/

/-- No meaning faults or refuses: CORE's only fault is the empty entry (60_exceptions.md R242). -/
theorem exec_next (i : Instr) (s : State) : ∃ t, exec i s = .next t := by
  cases i <;> exact ⟨_, rfl⟩

theorem concat_toNat (hi lo : Byte) : (concat hi lo).toNat = hi.toNat * 256 + lo.toNat := by
  rw [concat, BitVec.toNat_append, ← Nat.shiftLeft_add_eq_or_of_lt lo.isLt, Nat.shiftLeft_eq]

/-! ### The flags -/

/-- One bit of P after a flag is written: the flag's value at the flag's bit, the old bit elsewhere. -/
theorem putFlag_getLsbD (mask p : Byte) (b : Bool) (i : Nat) :
    (putFlag mask b p).getLsbD i = if mask.getLsbD i = true then b else p.getLsbD i := by
  unfold putFlag setMask clearMask
  cases b <;> cases hm : mask.getLsbD i <;> simp [hm]
  by_cases hi : i < 8
  · simp [hi]
  · rw [BitVec.getLsbD_of_ge _ _ (by omega)]; simp

theorem isSet_flagC (p : Byte) : isSet flagC p = p.getLsbD 0 := by
  unfold isSet flagC; revert p; decide

/-! ### Decoding, fetching -/

/-- An opcode byte that selects a row selects a row of the table, and that row's opcode is it. -/
theorem lookup_mem {op : Byte} {row : Row} (h : lookup op = some row) : row ∈ rows ∧ row.opcode = op :=
  ⟨List.mem_of_find?_eq_some h, by simpa using List.find?_some h⟩

/-- An empty entry is well formed, whatever base cycles it holds (30_encoding.md R81, R84). -/
theorem DecodeEntry.empty_wellFormed (op : Byte) : (DecodeEntry.empty op).wellFormed = true := by
  have range : ∀ k : Fin 6, (decide (2 ≤ 2 + k.val) && decide (2 + k.val ≤ 7)) = true := by decide
  have h : (DecodeEntry.empty op).cyclesInRange = true := range (Config.emptyEntryCycles op)
  rw [DecodeEntry.wellFormed, h]
  rfl

/-- Where the opcode byte selects a row, the fetch reads the operand of its shape. -/
theorem fetchInstr_of_row {s : State} {row : Row} (h : lookup (s.busByte s.pc) = some row) :
    fetchInstr s = .ok (fetchOperand row.shape (s.afterRead s.pc).advancePc) := by
  simp [fetchInstr, h]

/-- Where it selects an empty entry, the fetch gives the opcode byte and has read nothing else. -/
theorem fetchInstr_of_empty {s : State} (h : lookup (s.busByte s.pc) = none) :
    fetchInstr s = .error (s.busByte s.pc, (s.afterRead s.pc).advancePc) := by
  simp [fetchInstr, h]; rfl

/-- A step that completes ran the fetched instruction of some row. -/
theorem step_next_cases {s t : State} (h : step s = .next t) :
    ∃ row, lookup (s.busByte s.pc) = some row ∧
      exec (fetchOperand row.shape (s.afterRead s.pc).advancePc).1
        (fetchOperand row.shape (s.afterRead s.pc).advancePc).2 = .next t := by
  cases hl : lookup (s.busByte s.pc) with
  | none => simp [step, fetchInstr_of_empty hl] at h
  | some row => exact ⟨row, rfl, by simpa [step, fetchInstr_of_row hl] using h⟩

/-- A step that faults read an opcode byte that selects an empty entry. -/
theorem step_fault_cases {s t : State} {op : Byte}
    (h : step s = .fault (.unimplementedOpcode op t)) :
    lookup (s.busByte s.pc) = none ∧ op = s.busByte s.pc ∧
      t = (s.afterRead s.pc).advancePc.recordFault op := by
  cases hl : lookup (s.busByte s.pc) with
  | none => simp [step, fetchInstr_of_empty hl] at h; exact ⟨rfl, h.1.symm, by rw [← h.2, h.1]⟩
  | some row =>
    obtain ⟨u, hu⟩ := exec_next (fetchOperand row.shape (s.afterRead s.pc).advancePc).1
      (fetchOperand row.shape (s.afterRead s.pc).advancePc).2
    simp [step, fetchInstr_of_row hl, hu] at h

end Sys2Proof.Machine
end

