-- ==== Sys2Proof/Laws/PerInstr.lean ====
section
/-!
SUPPORT. Statements made per instruction: the family Image. The bytes of an instruction begin with an
implemented opcode, have the length of its format, and their decode entry is well formed.
-/

namespace Sys2Proof.Laws

/-- The image of an instruction (30_encoding.md R71, R81, R85). -/
def Image.Statement (i : Instr) : Prop :=
  i.wellFormed = true ∧ ∃ r, lookup ((encode i).headD 0) = some r ∧
    imageFits r.resolver (encode i) = true ∧ r.entry.wellFormed = true ∧
    r.shape.operandBytes = r.resolver.operandBytes

theorem Image.ldaImm (imm : Byte) : Image.Statement (.ldaImm imm) := ⟨rfl, _, rfl, rfl, rfl, rfl⟩
theorem Image.ldaZpg (zp : Byte) : Image.Statement (.ldaZpg zp) := ⟨rfl, _, rfl, rfl, rfl, rfl⟩
theorem Image.ldaZpgx (zp : Byte) : Image.Statement (.ldaZpgx zp) := ⟨rfl, _, rfl, rfl, rfl, rfl⟩
theorem Image.ldaAbs (base : Addr) : Image.Statement (.ldaAbs base) := ⟨rfl, _, rfl, rfl, rfl, rfl⟩
theorem Image.ldaAbsx (base : Addr) : Image.Statement (.ldaAbsx base) := ⟨rfl, _, rfl, rfl, rfl, rfl⟩
theorem Image.ldaAbsy (base : Addr) : Image.Statement (.ldaAbsy base) := ⟨rfl, _, rfl, rfl, rfl, rfl⟩
theorem Image.ldaIndx (zp : Byte) : Image.Statement (.ldaIndx zp) := ⟨rfl, _, rfl, rfl, rfl, rfl⟩
theorem Image.ldaIndy (zp : Byte) : Image.Statement (.ldaIndy zp) := ⟨rfl, _, rfl, rfl, rfl, rfl⟩
theorem Image.ldxImm (imm : Byte) : Image.Statement (.ldxImm imm) := ⟨rfl, _, rfl, rfl, rfl, rfl⟩
theorem Image.ldxZpg (zp : Byte) : Image.Statement (.ldxZpg zp) := ⟨rfl, _, rfl, rfl, rfl, rfl⟩
theorem Image.ldxZpgy (zp : Byte) : Image.Statement (.ldxZpgy zp) := ⟨rfl, _, rfl, rfl, rfl, rfl⟩
theorem Image.ldxAbs (base : Addr) : Image.Statement (.ldxAbs base) := ⟨rfl, _, rfl, rfl, rfl, rfl⟩
theorem Image.ldxAbsy (base : Addr) : Image.Statement (.ldxAbsy base) := ⟨rfl, _, rfl, rfl, rfl, rfl⟩
theorem Image.ldyImm (imm : Byte) : Image.Statement (.ldyImm imm) := ⟨rfl, _, rfl, rfl, rfl, rfl⟩
theorem Image.ldyZpg (zp : Byte) : Image.Statement (.ldyZpg zp) := ⟨rfl, _, rfl, rfl, rfl, rfl⟩
theorem Image.ldyZpgx (zp : Byte) : Image.Statement (.ldyZpgx zp) := ⟨rfl, _, rfl, rfl, rfl, rfl⟩
theorem Image.ldyAbs (base : Addr) : Image.Statement (.ldyAbs base) := ⟨rfl, _, rfl, rfl, rfl, rfl⟩
theorem Image.ldyAbsx (base : Addr) : Image.Statement (.ldyAbsx base) := ⟨rfl, _, rfl, rfl, rfl, rfl⟩
theorem Image.staZpg (zp : Byte) : Image.Statement (.staZpg zp) := ⟨rfl, _, rfl, rfl, rfl, rfl⟩
theorem Image.staZpgx (zp : Byte) : Image.Statement (.staZpgx zp) := ⟨rfl, _, rfl, rfl, rfl, rfl⟩
theorem Image.staAbs (base : Addr) : Image.Statement (.staAbs base) := ⟨rfl, _, rfl, rfl, rfl, rfl⟩
theorem Image.staAbsx (base : Addr) : Image.Statement (.staAbsx base) := ⟨rfl, _, rfl, rfl, rfl, rfl⟩
theorem Image.staAbsy (base : Addr) : Image.Statement (.staAbsy base) := ⟨rfl, _, rfl, rfl, rfl, rfl⟩
theorem Image.staIndx (zp : Byte) : Image.Statement (.staIndx zp) := ⟨rfl, _, rfl, rfl, rfl, rfl⟩
theorem Image.staIndy (zp : Byte) : Image.Statement (.staIndy zp) := ⟨rfl, _, rfl, rfl, rfl, rfl⟩
theorem Image.stxZpg (zp : Byte) : Image.Statement (.stxZpg zp) := ⟨rfl, _, rfl, rfl, rfl, rfl⟩
theorem Image.stxZpgy (zp : Byte) : Image.Statement (.stxZpgy zp) := ⟨rfl, _, rfl, rfl, rfl, rfl⟩
theorem Image.stxAbs (base : Addr) : Image.Statement (.stxAbs base) := ⟨rfl, _, rfl, rfl, rfl, rfl⟩
theorem Image.styZpg (zp : Byte) : Image.Statement (.styZpg zp) := ⟨rfl, _, rfl, rfl, rfl, rfl⟩
theorem Image.styZpgx (zp : Byte) : Image.Statement (.styZpgx zp) := ⟨rfl, _, rfl, rfl, rfl, rfl⟩
theorem Image.styAbs (base : Addr) : Image.Statement (.styAbs base) := ⟨rfl, _, rfl, rfl, rfl, rfl⟩
theorem Image.adcImm (imm : Byte) : Image.Statement (.adcImm imm) := ⟨rfl, _, rfl, rfl, rfl, rfl⟩
theorem Image.adcZpg (zp : Byte) : Image.Statement (.adcZpg zp) := ⟨rfl, _, rfl, rfl, rfl, rfl⟩
theorem Image.adcZpgx (zp : Byte) : Image.Statement (.adcZpgx zp) := ⟨rfl, _, rfl, rfl, rfl, rfl⟩
theorem Image.adcAbs (base : Addr) : Image.Statement (.adcAbs base) := ⟨rfl, _, rfl, rfl, rfl, rfl⟩
theorem Image.adcAbsx (base : Addr) : Image.Statement (.adcAbsx base) := ⟨rfl, _, rfl, rfl, rfl, rfl⟩
theorem Image.adcAbsy (base : Addr) : Image.Statement (.adcAbsy base) := ⟨rfl, _, rfl, rfl, rfl, rfl⟩
theorem Image.adcIndx (zp : Byte) : Image.Statement (.adcIndx zp) := ⟨rfl, _, rfl, rfl, rfl, rfl⟩
theorem Image.adcIndy (zp : Byte) : Image.Statement (.adcIndy zp) := ⟨rfl, _, rfl, rfl, rfl, rfl⟩
theorem Image.sbcImm (imm : Byte) : Image.Statement (.sbcImm imm) := ⟨rfl, _, rfl, rfl, rfl, rfl⟩
theorem Image.sbcZpg (zp : Byte) : Image.Statement (.sbcZpg zp) := ⟨rfl, _, rfl, rfl, rfl, rfl⟩
theorem Image.sbcZpgx (zp : Byte) : Image.Statement (.sbcZpgx zp) := ⟨rfl, _, rfl, rfl, rfl, rfl⟩
theorem Image.sbcAbs (base : Addr) : Image.Statement (.sbcAbs base) := ⟨rfl, _, rfl, rfl, rfl, rfl⟩
theorem Image.sbcAbsx (base : Addr) : Image.Statement (.sbcAbsx base) := ⟨rfl, _, rfl, rfl, rfl, rfl⟩
theorem Image.sbcAbsy (base : Addr) : Image.Statement (.sbcAbsy base) := ⟨rfl, _, rfl, rfl, rfl, rfl⟩
theorem Image.sbcIndx (zp : Byte) : Image.Statement (.sbcIndx zp) := ⟨rfl, _, rfl, rfl, rfl, rfl⟩
theorem Image.sbcIndy (zp : Byte) : Image.Statement (.sbcIndy zp) := ⟨rfl, _, rfl, rfl, rfl, rfl⟩
theorem Image.incZpg (zp : Byte) : Image.Statement (.incZpg zp) := ⟨rfl, _, rfl, rfl, rfl, rfl⟩
theorem Image.incZpgx (zp : Byte) : Image.Statement (.incZpgx zp) := ⟨rfl, _, rfl, rfl, rfl, rfl⟩
theorem Image.incAbs (base : Addr) : Image.Statement (.incAbs base) := ⟨rfl, _, rfl, rfl, rfl, rfl⟩
theorem Image.incAbsx (base : Addr) : Image.Statement (.incAbsx base) := ⟨rfl, _, rfl, rfl, rfl, rfl⟩
theorem Image.decZpg (zp : Byte) : Image.Statement (.decZpg zp) := ⟨rfl, _, rfl, rfl, rfl, rfl⟩
theorem Image.decZpgx (zp : Byte) : Image.Statement (.decZpgx zp) := ⟨rfl, _, rfl, rfl, rfl, rfl⟩
theorem Image.decAbs (base : Addr) : Image.Statement (.decAbs base) := ⟨rfl, _, rfl, rfl, rfl, rfl⟩
theorem Image.decAbsx (base : Addr) : Image.Statement (.decAbsx base) := ⟨rfl, _, rfl, rfl, rfl, rfl⟩
theorem Image.inx : Image.Statement .inx := ⟨rfl, _, rfl, rfl, rfl, rfl⟩
theorem Image.iny : Image.Statement .iny := ⟨rfl, _, rfl, rfl, rfl, rfl⟩
theorem Image.dex : Image.Statement .dex := ⟨rfl, _, rfl, rfl, rfl, rfl⟩
theorem Image.dey : Image.Statement .dey := ⟨rfl, _, rfl, rfl, rfl, rfl⟩

end Sys2Proof.Laws
end

