-- ==== Sys2Proof/Tests/Slice0.lean ====
section
/-!
SUPPORT. Tests of one step each, with the results of spec/95_test_vectors.md; decoding of words written
out from spec/30_encoding.md; the smoke test of the well-formedness checks; and a witness for the
hypotheses of each statement.
-/

namespace Sys2Proof.Tests

open Sys2Proof Sys2Proof.Machine Sys2Proof.Safety Sys2Proof.Claims

/-! ### What a vector of 95_test_vectors.md sets and shows -/

/-- Bytes at consecutive addresses, modulo 2^16. -/
def bytesAt : Addr → List Byte → List (Addr × Byte)
  | _, [] => []
  | addr, b :: rest => (addr, b) :: bytesAt (addr + 1) rest

/-- The start state of a vector: Reset and the harness's writes and setters, the reads and writes made
so far not shown. -/
def start (pc : Addr) (code : List Byte) (ram : List (Addr × Byte)) (a x y p : Byte) : State :=
  { harnessStart (bytesAt pc code ++ ram) pc a x y 0xFD p State.reset with trace := [] }

/-- What a vector shows of the end state, the bus trace oldest first. -/
structure Seen where
  a : Byte
  x : Byte
  y : Byte
  p : Byte
  pc : Addr
  cycles : Cycles
  trace : List BusAccess
  deriving DecidableEq

/-- The vector's view of a step that completes with S = FD. -/
def seen : Host.Outcome State Fault Refusal → Option Seen
  | .next t => if t.sp = 0xFD then some ⟨t.a, t.x, t.y, t.p, t.pc, t.cycles, t.trace.reverse⟩ else none
  | .fault _ => none
  | .refused _ => none

/-! ### The well-formedness checks: each refuses an ill-formed term -/

theorem test_wf_entry : (decodeTable 0xBD).wellFormed = true := by decide
theorem test_wf_empty_entry : (decodeTable 0xEA).wellFormed = true := DecodeEntry.empty_wellFormed 0xEA
theorem test_wf_instr : (Instr.ldaImm 0xFF).wellFormed = true := by decide
/-- A handler without a resolver. -/
theorem test_ill_one_handler_null : DecodeEntry.bothOrNeither ⟨some .lda, none, 2, true⟩ = false := by
  decide
/-- Eight cycles, and one, and an empty entry with none: outside 2 to 7. -/
theorem test_ill_cycles : DecodeEntry.cyclesInRange ⟨some .inc, some .absx, 8, false⟩ = false ∧
    DecodeEntry.cyclesInRange ⟨some .lda, some .imm, 1, true⟩ = false ∧
    DecodeEntry.cyclesInRange ⟨none, none, 0, true⟩ = false := by decide
/-- A store that honours the penalty, and a load that does not. -/
theorem test_ill_penalty : DecodeEntry.penaltyAsRuled ⟨some .sta, some .absx, 5, true⟩ = false ∧
    DecodeEntry.penaltyAsRuled ⟨some .lda, some .absx, 4, false⟩ = false := by decide
/-- INX with an operand, and LDA without one. -/
theorem test_ill_implied : DecodeEntry.impliedAgrees ⟨some .inx, some .zpg, 2, true⟩ = false ∧
    DecodeEntry.impliedAgrees ⟨some .lda, some .imp, 2, true⟩ = false := by decide
/-- A store to an immediate. -/
theorem test_ill_immediate_store :
    DecodeEntry.noImmediateStore ⟨some .sta, some .imm, 2, false⟩ = false := by decide
/-- The whole check refuses what one of its parts refuses. -/
theorem test_ill_entry : DecodeEntry.wellFormed ⟨some .sta, some .imm, 2, false⟩ = false := by decide
/-- An absolute instruction of two bytes. -/
theorem test_ill_image : imageFits .abs [0xAD, 0x34] = false ∧ imageFits .abs [0xAD, 0x34, 0x12] = true := by
  decide

/-! ### Decoding: one word for every row of the table of 30_encoding.md R83, laid out by R71 -/

theorem test_decode_lda :
    decodeTableWord 16 0x5AA9 = some (.ldaImm 0x5A) ∧
    decodeTableWord 16 0x40A5 = some (.ldaZpg 0x40) ∧
    decodeTableWord 16 0x40B5 = some (.ldaZpgx 0x40) ∧
    decodeTableWord 24 0x1234AD = some (.ldaAbs 0x1234) ∧
    decodeTableWord 24 0x1234BD = some (.ldaAbsx 0x1234) ∧
    decodeTableWord 24 0x1234B9 = some (.ldaAbsy 0x1234) ∧
    decodeTableWord 16 0x40A1 = some (.ldaIndx 0x40) ∧
    decodeTableWord 16 0x40B1 = some (.ldaIndy 0x40) := by decide

theorem test_decode_ldx :
    decodeTableWord 16 0x5AA2 = some (.ldxImm 0x5A) ∧
    decodeTableWord 16 0x40A6 = some (.ldxZpg 0x40) ∧
    decodeTableWord 16 0x40B6 = some (.ldxZpgy 0x40) ∧
    decodeTableWord 24 0x1234AE = some (.ldxAbs 0x1234) ∧
    decodeTableWord 24 0x1234BE = some (.ldxAbsy 0x1234) := by decide

theorem test_decode_ldy :
    decodeTableWord 16 0x5AA0 = some (.ldyImm 0x5A) ∧
    decodeTableWord 16 0x40A4 = some (.ldyZpg 0x40) ∧
    decodeTableWord 16 0x40B4 = some (.ldyZpgx 0x40) ∧
    decodeTableWord 24 0x1234AC = some (.ldyAbs 0x1234) ∧
    decodeTableWord 24 0x1234BC = some (.ldyAbsx 0x1234) := by decide

theorem test_decode_sta :
    decodeTableWord 16 0x4085 = some (.staZpg 0x40) ∧
    decodeTableWord 16 0x4095 = some (.staZpgx 0x40) ∧
    decodeTableWord 24 0x12348D = some (.staAbs 0x1234) ∧
    decodeTableWord 24 0x12349D = some (.staAbsx 0x1234) ∧
    decodeTableWord 24 0x123499 = some (.staAbsy 0x1234) ∧
    decodeTableWord 16 0x4081 = some (.staIndx 0x40) ∧
    decodeTableWord 16 0x4091 = some (.staIndy 0x40) := by decide

theorem test_decode_stx :
    decodeTableWord 16 0x4086 = some (.stxZpg 0x40) ∧
    decodeTableWord 16 0x4096 = some (.stxZpgy 0x40) ∧
    decodeTableWord 24 0x12348E = some (.stxAbs 0x1234) := by decide

theorem test_decode_sty :
    decodeTableWord 16 0x4084 = some (.styZpg 0x40) ∧
    decodeTableWord 16 0x4094 = some (.styZpgx 0x40) ∧
    decodeTableWord 24 0x12348C = some (.styAbs 0x1234) := by decide

theorem test_decode_adc :
    decodeTableWord 16 0x5A69 = some (.adcImm 0x5A) ∧
    decodeTableWord 16 0x4065 = some (.adcZpg 0x40) ∧
    decodeTableWord 16 0x4075 = some (.adcZpgx 0x40) ∧
    decodeTableWord 24 0x12346D = some (.adcAbs 0x1234) ∧
    decodeTableWord 24 0x12347D = some (.adcAbsx 0x1234) ∧
    decodeTableWord 24 0x123479 = some (.adcAbsy 0x1234) ∧
    decodeTableWord 16 0x4061 = some (.adcIndx 0x40) ∧
    decodeTableWord 16 0x4071 = some (.adcIndy 0x40) := by decide

theorem test_decode_sbc :
    decodeTableWord 16 0x5AE9 = some (.sbcImm 0x5A) ∧
    decodeTableWord 16 0x40E5 = some (.sbcZpg 0x40) ∧
    decodeTableWord 16 0x40F5 = some (.sbcZpgx 0x40) ∧
    decodeTableWord 24 0x1234ED = some (.sbcAbs 0x1234) ∧
    decodeTableWord 24 0x1234FD = some (.sbcAbsx 0x1234) ∧
    decodeTableWord 24 0x1234F9 = some (.sbcAbsy 0x1234) ∧
    decodeTableWord 16 0x40E1 = some (.sbcIndx 0x40) ∧
    decodeTableWord 16 0x40F1 = some (.sbcIndy 0x40) := by decide

theorem test_decode_inc :
    decodeTableWord 16 0x40E6 = some (.incZpg 0x40) ∧
    decodeTableWord 16 0x40F6 = some (.incZpgx 0x40) ∧
    decodeTableWord 24 0x1234EE = some (.incAbs 0x1234) ∧
    decodeTableWord 24 0x1234FE = some (.incAbsx 0x1234) := by decide

theorem test_decode_dec :
    decodeTableWord 16 0x40C6 = some (.decZpg 0x40) ∧
    decodeTableWord 16 0x40D6 = some (.decZpgx 0x40) ∧
    decodeTableWord 24 0x1234CE = some (.decAbs 0x1234) ∧
    decodeTableWord 24 0x1234DE = some (.decAbsx 0x1234) := by decide

theorem test_decode_inx :
    decodeTableWord 8 0xE8 = some .inx := by decide

theorem test_decode_iny :
    decodeTableWord 8 0xC8 = some .iny := by decide

theorem test_decode_dex :
    decodeTableWord 8 0xCA = some .dex := by decide

theorem test_decode_dey :
    decodeTableWord 8 0x88 = some .dey := by decide

/-- NOP, JMP absolute and BRK are empty entries (R84; vectors U1, U2, U3). -/
theorem test_decode_empty : decode [0xEA] = .error (.unimplementedOpcode 0xEA) ∧
    decode [0x4C, 0x00, 0x90] = .error (.unimplementedOpcode 0x4C) ∧
    decode [0x00] = .error (.unimplementedOpcode 0x00) := by decide

theorem test_decode_missing_operand : decode [0xAD, 0x34] = .error (.missingOperand 0xAD) ∧
    decode [0xA9] = .error (.missingOperand 0xA9) ∧ decode [] = .error .noOpcode := by decide

/-- The words that the encoder lays out, by R71 and R83. -/
theorem test_encode : encode (.staAbsy 0x20F0) = [0x99, 0xF0, 0x20] ∧ encode (.sbcIndx 0x40) = [0xE1, 0x40] ∧
    encode .dey = [0x88] := by decide

/-! ### One vector for every instruction (95_test_vectors.md section 2.1) -/

/-- VA9. -/
theorem test_lda_imm :
    seen (step (start 0x8000 [0xA9, 0x5A] [] 0x33 0x05 0x10 0x21)) =
      some ⟨0x5A, 0x05, 0x10, 0x21, 0x8002, 2, [.read 0x8000 0xA9, .read 0x8001 0x5A]⟩ := by decide

/-- VA5. -/
theorem test_lda_zpg :
    seen (step (start 0x8000 [0xA5, 0x40] [(0x0040, 0x5A)] 0x33 0x05 0x10 0x21)) =
      some ⟨0x5A, 0x05, 0x10, 0x21, 0x8002, 3, [.read 0x8000 0xA5, .read 0x8001 0x40, .read 0x0040 0x5A]⟩ := by decide

/-- VB5. -/
theorem test_lda_zpgx :
    seen (step (start 0x8000 [0xB5, 0x40] [(0x0045, 0x5A)] 0x33 0x05 0x10 0x21)) =
      some ⟨0x5A, 0x05, 0x10, 0x21, 0x8002, 4, [.read 0x8000 0xB5, .read 0x8001 0x40, .read 0x0045 0x5A]⟩ := by decide

/-- VAD. -/
theorem test_lda_abs :
    seen (step (start 0x8000 [0xAD, 0x34, 0x12] [(0x1234, 0x5A)] 0x33 0x05 0x10 0x21)) =
      some ⟨0x5A, 0x05, 0x10, 0x21, 0x8003, 4, [.read 0x8000 0xAD, .read 0x8001 0x34, .read 0x8002 0x12, .read 0x1234 0x5A]⟩ := by decide

/-- VBD. -/
theorem test_lda_absx :
    seen (step (start 0x8000 [0xBD, 0x34, 0x12] [(0x1239, 0x5A)] 0x33 0x05 0x10 0x21)) =
      some ⟨0x5A, 0x05, 0x10, 0x21, 0x8003, 4, [.read 0x8000 0xBD, .read 0x8001 0x34, .read 0x8002 0x12, .read 0x1239 0x5A]⟩ := by decide

/-- VB9. -/
theorem test_lda_absy :
    seen (step (start 0x8000 [0xB9, 0x34, 0x12] [(0x1244, 0x5A)] 0x33 0x05 0x10 0x21)) =
      some ⟨0x5A, 0x05, 0x10, 0x21, 0x8003, 4, [.read 0x8000 0xB9, .read 0x8001 0x34, .read 0x8002 0x12, .read 0x1244 0x5A]⟩ := by decide

/-- VA1. -/
theorem test_lda_indx :
    seen (step (start 0x8000 [0xA1, 0x40] [(0x0045, 0x00), (0x0046, 0x30), (0x3000, 0x5A)] 0x33 0x05 0x10 0x21)) =
      some ⟨0x5A, 0x05, 0x10, 0x21, 0x8002, 6, [.read 0x8000 0xA1, .read 0x8001 0x40, .read 0x0045 0x00, .read 0x0046 0x30, .read 0x3000 0x5A]⟩ := by decide

/-- VB1. -/
theorem test_lda_indy :
    seen (step (start 0x8000 [0xB1, 0x40] [(0x0040, 0x00), (0x0041, 0x30), (0x3010, 0x5A)] 0x33 0x05 0x10 0x21)) =
      some ⟨0x5A, 0x05, 0x10, 0x21, 0x8002, 5, [.read 0x8000 0xB1, .read 0x8001 0x40, .read 0x0040 0x00, .read 0x0041 0x30, .read 0x3010 0x5A]⟩ := by decide

/-- VA2. -/
theorem test_ldx_imm :
    seen (step (start 0x8000 [0xA2, 0x5A] [] 0x33 0x05 0x10 0x21)) =
      some ⟨0x33, 0x5A, 0x10, 0x21, 0x8002, 2, [.read 0x8000 0xA2, .read 0x8001 0x5A]⟩ := by decide

/-- VA6. -/
theorem test_ldx_zpg :
    seen (step (start 0x8000 [0xA6, 0x40] [(0x0040, 0x5A)] 0x33 0x05 0x10 0x21)) =
      some ⟨0x33, 0x5A, 0x10, 0x21, 0x8002, 3, [.read 0x8000 0xA6, .read 0x8001 0x40, .read 0x0040 0x5A]⟩ := by decide

/-- VB6. -/
theorem test_ldx_zpgy :
    seen (step (start 0x8000 [0xB6, 0x40] [(0x0050, 0x5A)] 0x33 0x05 0x10 0x21)) =
      some ⟨0x33, 0x5A, 0x10, 0x21, 0x8002, 4, [.read 0x8000 0xB6, .read 0x8001 0x40, .read 0x0050 0x5A]⟩ := by decide

/-- VAE. -/
theorem test_ldx_abs :
    seen (step (start 0x8000 [0xAE, 0x34, 0x12] [(0x1234, 0x5A)] 0x33 0x05 0x10 0x21)) =
      some ⟨0x33, 0x5A, 0x10, 0x21, 0x8003, 4, [.read 0x8000 0xAE, .read 0x8001 0x34, .read 0x8002 0x12, .read 0x1234 0x5A]⟩ := by decide

/-- VBE. -/
theorem test_ldx_absy :
    seen (step (start 0x8000 [0xBE, 0x34, 0x12] [(0x1244, 0x5A)] 0x33 0x05 0x10 0x21)) =
      some ⟨0x33, 0x5A, 0x10, 0x21, 0x8003, 4, [.read 0x8000 0xBE, .read 0x8001 0x34, .read 0x8002 0x12, .read 0x1244 0x5A]⟩ := by decide

/-- VA0. -/
theorem test_ldy_imm :
    seen (step (start 0x8000 [0xA0, 0x5A] [] 0x33 0x05 0x10 0x21)) =
      some ⟨0x33, 0x05, 0x5A, 0x21, 0x8002, 2, [.read 0x8000 0xA0, .read 0x8001 0x5A]⟩ := by decide

/-- VA4. -/
theorem test_ldy_zpg :
    seen (step (start 0x8000 [0xA4, 0x40] [(0x0040, 0x5A)] 0x33 0x05 0x10 0x21)) =
      some ⟨0x33, 0x05, 0x5A, 0x21, 0x8002, 3, [.read 0x8000 0xA4, .read 0x8001 0x40, .read 0x0040 0x5A]⟩ := by decide

/-- VB4. -/
theorem test_ldy_zpgx :
    seen (step (start 0x8000 [0xB4, 0x40] [(0x0045, 0x5A)] 0x33 0x05 0x10 0x21)) =
      some ⟨0x33, 0x05, 0x5A, 0x21, 0x8002, 4, [.read 0x8000 0xB4, .read 0x8001 0x40, .read 0x0045 0x5A]⟩ := by decide

/-- VAC. -/
theorem test_ldy_abs :
    seen (step (start 0x8000 [0xAC, 0x34, 0x12] [(0x1234, 0x5A)] 0x33 0x05 0x10 0x21)) =
      some ⟨0x33, 0x05, 0x5A, 0x21, 0x8003, 4, [.read 0x8000 0xAC, .read 0x8001 0x34, .read 0x8002 0x12, .read 0x1234 0x5A]⟩ := by decide

/-- VBC. -/
theorem test_ldy_absx :
    seen (step (start 0x8000 [0xBC, 0x34, 0x12] [(0x1239, 0x5A)] 0x33 0x05 0x10 0x21)) =
      some ⟨0x33, 0x05, 0x5A, 0x21, 0x8003, 4, [.read 0x8000 0xBC, .read 0x8001 0x34, .read 0x8002 0x12, .read 0x1239 0x5A]⟩ := by decide

/-- V85. -/
theorem test_sta_zpg :
    seen (step (start 0x8000 [0x85, 0x40] [] 0x33 0x05 0x10 0x21)) =
      some ⟨0x33, 0x05, 0x10, 0x21, 0x8002, 3, [.read 0x8000 0x85, .read 0x8001 0x40, .write 0x0040 0x33]⟩ := by decide

/-- V95. -/
theorem test_sta_zpgx :
    seen (step (start 0x8000 [0x95, 0x40] [] 0x33 0x05 0x10 0x21)) =
      some ⟨0x33, 0x05, 0x10, 0x21, 0x8002, 4, [.read 0x8000 0x95, .read 0x8001 0x40, .write 0x0045 0x33]⟩ := by decide

/-- V8D. -/
theorem test_sta_abs :
    seen (step (start 0x8000 [0x8D, 0x34, 0x12] [] 0x33 0x05 0x10 0x21)) =
      some ⟨0x33, 0x05, 0x10, 0x21, 0x8003, 4, [.read 0x8000 0x8D, .read 0x8001 0x34, .read 0x8002 0x12, .write 0x1234 0x33]⟩ := by decide

/-- V9D. -/
theorem test_sta_absx :
    seen (step (start 0x8000 [0x9D, 0x34, 0x12] [] 0x33 0x05 0x10 0x21)) =
      some ⟨0x33, 0x05, 0x10, 0x21, 0x8003, 5, [.read 0x8000 0x9D, .read 0x8001 0x34, .read 0x8002 0x12, .write 0x1239 0x33]⟩ := by decide

/-- V99. -/
theorem test_sta_absy :
    seen (step (start 0x8000 [0x99, 0x34, 0x12] [] 0x33 0x05 0x10 0x21)) =
      some ⟨0x33, 0x05, 0x10, 0x21, 0x8003, 5, [.read 0x8000 0x99, .read 0x8001 0x34, .read 0x8002 0x12, .write 0x1244 0x33]⟩ := by decide

/-- V81. -/
theorem test_sta_indx :
    seen (step (start 0x8000 [0x81, 0x40] [(0x0045, 0x00), (0x0046, 0x30)] 0x33 0x05 0x10 0x21)) =
      some ⟨0x33, 0x05, 0x10, 0x21, 0x8002, 6, [.read 0x8000 0x81, .read 0x8001 0x40, .read 0x0045 0x00, .read 0x0046 0x30, .write 0x3000 0x33]⟩ := by decide

/-- V91. -/
theorem test_sta_indy :
    seen (step (start 0x8000 [0x91, 0x40] [(0x0040, 0x00), (0x0041, 0x30)] 0x33 0x05 0x10 0x21)) =
      some ⟨0x33, 0x05, 0x10, 0x21, 0x8002, 6, [.read 0x8000 0x91, .read 0x8001 0x40, .read 0x0040 0x00, .read 0x0041 0x30, .write 0x3010 0x33]⟩ := by decide

/-- V86. -/
theorem test_stx_zpg :
    seen (step (start 0x8000 [0x86, 0x40] [] 0x33 0x05 0x10 0x21)) =
      some ⟨0x33, 0x05, 0x10, 0x21, 0x8002, 3, [.read 0x8000 0x86, .read 0x8001 0x40, .write 0x0040 0x05]⟩ := by decide

/-- V96. -/
theorem test_stx_zpgy :
    seen (step (start 0x8000 [0x96, 0x40] [] 0x33 0x05 0x10 0x21)) =
      some ⟨0x33, 0x05, 0x10, 0x21, 0x8002, 4, [.read 0x8000 0x96, .read 0x8001 0x40, .write 0x0050 0x05]⟩ := by decide

/-- V8E. -/
theorem test_stx_abs :
    seen (step (start 0x8000 [0x8E, 0x34, 0x12] [] 0x33 0x05 0x10 0x21)) =
      some ⟨0x33, 0x05, 0x10, 0x21, 0x8003, 4, [.read 0x8000 0x8E, .read 0x8001 0x34, .read 0x8002 0x12, .write 0x1234 0x05]⟩ := by decide

/-- V84. -/
theorem test_sty_zpg :
    seen (step (start 0x8000 [0x84, 0x40] [] 0x33 0x05 0x10 0x21)) =
      some ⟨0x33, 0x05, 0x10, 0x21, 0x8002, 3, [.read 0x8000 0x84, .read 0x8001 0x40, .write 0x0040 0x10]⟩ := by decide

/-- V94. -/
theorem test_sty_zpgx :
    seen (step (start 0x8000 [0x94, 0x40] [] 0x33 0x05 0x10 0x21)) =
      some ⟨0x33, 0x05, 0x10, 0x21, 0x8002, 4, [.read 0x8000 0x94, .read 0x8001 0x40, .write 0x0045 0x10]⟩ := by decide

/-- V8C. -/
theorem test_sty_abs :
    seen (step (start 0x8000 [0x8C, 0x34, 0x12] [] 0x33 0x05 0x10 0x21)) =
      some ⟨0x33, 0x05, 0x10, 0x21, 0x8003, 4, [.read 0x8000 0x8C, .read 0x8001 0x34, .read 0x8002 0x12, .write 0x1234 0x10]⟩ := by decide

/-- V69. -/
theorem test_adc_imm :
    seen (step (start 0x8000 [0x69, 0x5A] [] 0x33 0x05 0x10 0x21)) =
      some ⟨0x8E, 0x05, 0x10, 0xE0, 0x8002, 2, [.read 0x8000 0x69, .read 0x8001 0x5A]⟩ := by decide

/-- V65. -/
theorem test_adc_zpg :
    seen (step (start 0x8000 [0x65, 0x40] [(0x0040, 0x5A)] 0x33 0x05 0x10 0x21)) =
      some ⟨0x8E, 0x05, 0x10, 0xE0, 0x8002, 3, [.read 0x8000 0x65, .read 0x8001 0x40, .read 0x0040 0x5A]⟩ := by decide

/-- V75. -/
theorem test_adc_zpgx :
    seen (step (start 0x8000 [0x75, 0x40] [(0x0045, 0x5A)] 0x33 0x05 0x10 0x21)) =
      some ⟨0x8E, 0x05, 0x10, 0xE0, 0x8002, 4, [.read 0x8000 0x75, .read 0x8001 0x40, .read 0x0045 0x5A]⟩ := by decide

/-- V6D. -/
theorem test_adc_abs :
    seen (step (start 0x8000 [0x6D, 0x34, 0x12] [(0x1234, 0x5A)] 0x33 0x05 0x10 0x21)) =
      some ⟨0x8E, 0x05, 0x10, 0xE0, 0x8003, 4, [.read 0x8000 0x6D, .read 0x8001 0x34, .read 0x8002 0x12, .read 0x1234 0x5A]⟩ := by decide

/-- V7D. -/
theorem test_adc_absx :
    seen (step (start 0x8000 [0x7D, 0x34, 0x12] [(0x1239, 0x5A)] 0x33 0x05 0x10 0x21)) =
      some ⟨0x8E, 0x05, 0x10, 0xE0, 0x8003, 4, [.read 0x8000 0x7D, .read 0x8001 0x34, .read 0x8002 0x12, .read 0x1239 0x5A]⟩ := by decide

/-- V79. -/
theorem test_adc_absy :
    seen (step (start 0x8000 [0x79, 0x34, 0x12] [(0x1244, 0x5A)] 0x33 0x05 0x10 0x21)) =
      some ⟨0x8E, 0x05, 0x10, 0xE0, 0x8003, 4, [.read 0x8000 0x79, .read 0x8001 0x34, .read 0x8002 0x12, .read 0x1244 0x5A]⟩ := by decide

/-- V61. -/
theorem test_adc_indx :
    seen (step (start 0x8000 [0x61, 0x40] [(0x0045, 0x00), (0x0046, 0x30), (0x3000, 0x5A)] 0x33 0x05 0x10 0x21)) =
      some ⟨0x8E, 0x05, 0x10, 0xE0, 0x8002, 6, [.read 0x8000 0x61, .read 0x8001 0x40, .read 0x0045 0x00, .read 0x0046 0x30, .read 0x3000 0x5A]⟩ := by decide

/-- V71. -/
theorem test_adc_indy :
    seen (step (start 0x8000 [0x71, 0x40] [(0x0040, 0x00), (0x0041, 0x30), (0x3010, 0x5A)] 0x33 0x05 0x10 0x21)) =
      some ⟨0x8E, 0x05, 0x10, 0xE0, 0x8002, 5, [.read 0x8000 0x71, .read 0x8001 0x40, .read 0x0040 0x00, .read 0x0041 0x30, .read 0x3010 0x5A]⟩ := by decide

/-- VE9. -/
theorem test_sbc_imm :
    seen (step (start 0x8000 [0xE9, 0x5A] [] 0x33 0x05 0x10 0x21)) =
      some ⟨0xD9, 0x05, 0x10, 0xA0, 0x8002, 2, [.read 0x8000 0xE9, .read 0x8001 0x5A]⟩ := by decide

/-- VE5. -/
theorem test_sbc_zpg :
    seen (step (start 0x8000 [0xE5, 0x40] [(0x0040, 0x5A)] 0x33 0x05 0x10 0x21)) =
      some ⟨0xD9, 0x05, 0x10, 0xA0, 0x8002, 3, [.read 0x8000 0xE5, .read 0x8001 0x40, .read 0x0040 0x5A]⟩ := by decide

/-- VF5. -/
theorem test_sbc_zpgx :
    seen (step (start 0x8000 [0xF5, 0x40] [(0x0045, 0x5A)] 0x33 0x05 0x10 0x21)) =
      some ⟨0xD9, 0x05, 0x10, 0xA0, 0x8002, 4, [.read 0x8000 0xF5, .read 0x8001 0x40, .read 0x0045 0x5A]⟩ := by decide

/-- VED. -/
theorem test_sbc_abs :
    seen (step (start 0x8000 [0xED, 0x34, 0x12] [(0x1234, 0x5A)] 0x33 0x05 0x10 0x21)) =
      some ⟨0xD9, 0x05, 0x10, 0xA0, 0x8003, 4, [.read 0x8000 0xED, .read 0x8001 0x34, .read 0x8002 0x12, .read 0x1234 0x5A]⟩ := by decide

/-- VFD. -/
theorem test_sbc_absx :
    seen (step (start 0x8000 [0xFD, 0x34, 0x12] [(0x1239, 0x5A)] 0x33 0x05 0x10 0x21)) =
      some ⟨0xD9, 0x05, 0x10, 0xA0, 0x8003, 4, [.read 0x8000 0xFD, .read 0x8001 0x34, .read 0x8002 0x12, .read 0x1239 0x5A]⟩ := by decide

/-- VF9. -/
theorem test_sbc_absy :
    seen (step (start 0x8000 [0xF9, 0x34, 0x12] [(0x1244, 0x5A)] 0x33 0x05 0x10 0x21)) =
      some ⟨0xD9, 0x05, 0x10, 0xA0, 0x8003, 4, [.read 0x8000 0xF9, .read 0x8001 0x34, .read 0x8002 0x12, .read 0x1244 0x5A]⟩ := by decide

/-- VE1. -/
theorem test_sbc_indx :
    seen (step (start 0x8000 [0xE1, 0x40] [(0x0045, 0x00), (0x0046, 0x30), (0x3000, 0x5A)] 0x33 0x05 0x10 0x21)) =
      some ⟨0xD9, 0x05, 0x10, 0xA0, 0x8002, 6, [.read 0x8000 0xE1, .read 0x8001 0x40, .read 0x0045 0x00, .read 0x0046 0x30, .read 0x3000 0x5A]⟩ := by decide

/-- VF1. -/
theorem test_sbc_indy :
    seen (step (start 0x8000 [0xF1, 0x40] [(0x0040, 0x00), (0x0041, 0x30), (0x3010, 0x5A)] 0x33 0x05 0x10 0x21)) =
      some ⟨0xD9, 0x05, 0x10, 0xA0, 0x8002, 5, [.read 0x8000 0xF1, .read 0x8001 0x40, .read 0x0040 0x00, .read 0x0041 0x30, .read 0x3010 0x5A]⟩ := by decide

/-- VE6. -/
theorem test_inc_zpg :
    seen (step (start 0x8000 [0xE6, 0x40] [(0x0040, 0x7F)] 0x33 0x05 0x10 0x21)) =
      some ⟨0x33, 0x05, 0x10, 0xA1, 0x8002, 5, [.read 0x8000 0xE6, .read 0x8001 0x40, .read 0x0040 0x7F, .write 0x0040 0x80]⟩ := by decide

/-- VF6. -/
theorem test_inc_zpgx :
    seen (step (start 0x8000 [0xF6, 0x40] [(0x0045, 0x7F)] 0x33 0x05 0x10 0x21)) =
      some ⟨0x33, 0x05, 0x10, 0xA1, 0x8002, 6, [.read 0x8000 0xF6, .read 0x8001 0x40, .read 0x0045 0x7F, .write 0x0045 0x80]⟩ := by decide

/-- VEE. -/
theorem test_inc_abs :
    seen (step (start 0x8000 [0xEE, 0x34, 0x12] [(0x1234, 0x7F)] 0x33 0x05 0x10 0x21)) =
      some ⟨0x33, 0x05, 0x10, 0xA1, 0x8003, 6, [.read 0x8000 0xEE, .read 0x8001 0x34, .read 0x8002 0x12, .read 0x1234 0x7F, .write 0x1234 0x80]⟩ := by decide

/-- VFE. -/
theorem test_inc_absx :
    seen (step (start 0x8000 [0xFE, 0x34, 0x12] [(0x1239, 0x7F)] 0x33 0x05 0x10 0x21)) =
      some ⟨0x33, 0x05, 0x10, 0xA1, 0x8003, 7, [.read 0x8000 0xFE, .read 0x8001 0x34, .read 0x8002 0x12, .read 0x1239 0x7F, .write 0x1239 0x80]⟩ := by decide

/-- VC6. -/
theorem test_dec_zpg :
    seen (step (start 0x8000 [0xC6, 0x40] [(0x0040, 0x7F)] 0x33 0x05 0x10 0x21)) =
      some ⟨0x33, 0x05, 0x10, 0x21, 0x8002, 5, [.read 0x8000 0xC6, .read 0x8001 0x40, .read 0x0040 0x7F, .write 0x0040 0x7E]⟩ := by decide

/-- VD6. -/
theorem test_dec_zpgx :
    seen (step (start 0x8000 [0xD6, 0x40] [(0x0045, 0x7F)] 0x33 0x05 0x10 0x21)) =
      some ⟨0x33, 0x05, 0x10, 0x21, 0x8002, 6, [.read 0x8000 0xD6, .read 0x8001 0x40, .read 0x0045 0x7F, .write 0x0045 0x7E]⟩ := by decide

/-- VCE. -/
theorem test_dec_abs :
    seen (step (start 0x8000 [0xCE, 0x34, 0x12] [(0x1234, 0x7F)] 0x33 0x05 0x10 0x21)) =
      some ⟨0x33, 0x05, 0x10, 0x21, 0x8003, 6, [.read 0x8000 0xCE, .read 0x8001 0x34, .read 0x8002 0x12, .read 0x1234 0x7F, .write 0x1234 0x7E]⟩ := by decide

/-- VDE. -/
theorem test_dec_absx :
    seen (step (start 0x8000 [0xDE, 0x34, 0x12] [(0x1239, 0x7F)] 0x33 0x05 0x10 0x21)) =
      some ⟨0x33, 0x05, 0x10, 0x21, 0x8003, 7, [.read 0x8000 0xDE, .read 0x8001 0x34, .read 0x8002 0x12, .read 0x1239 0x7F, .write 0x1239 0x7E]⟩ := by decide

/-- VE8. -/
theorem test_inx_imp :
    seen (step (start 0x8000 [0xE8] [] 0x33 0x05 0x10 0x21)) =
      some ⟨0x33, 0x06, 0x10, 0x21, 0x8001, 2, [.read 0x8000 0xE8]⟩ := by decide

/-- VC8. -/
theorem test_iny_imp :
    seen (step (start 0x8000 [0xC8] [] 0x33 0x05 0x10 0x21)) =
      some ⟨0x33, 0x05, 0x11, 0x21, 0x8001, 2, [.read 0x8000 0xC8]⟩ := by decide

/-- VCA. -/
theorem test_dex_imp :
    seen (step (start 0x8000 [0xCA] [] 0x33 0x05 0x10 0x21)) =
      some ⟨0x33, 0x04, 0x10, 0x21, 0x8001, 2, [.read 0x8000 0xCA]⟩ := by decide

/-- V88. -/
theorem test_dey_imp :
    seen (step (start 0x8000 [0x88] [] 0x33 0x05 0x10 0x21)) =
      some ⟨0x33, 0x05, 0x0F, 0x21, 0x8001, 2, [.read 0x8000 0x88]⟩ := by decide

/-! ### Corners: at most one more vector for an instruction (sections 1.1, 1.2, 2.2, 2.3, 2.6) -/

/-- M1. -/
theorem test_lda_imm_corner :
    seen (step (start 0x8000 [0xA9, 0x00] [] 0x00 0x00 0x00 0xFF)) =
      some ⟨0x00, 0x00, 0x00, 0x7F, 0x8002, 2, [.read 0x8000 0xA9, .read 0x8001 0x00]⟩ := by decide

/-- A2. -/
theorem test_lda_zpg_corner :
    seen (step (start 0x8000 [0xA5, 0xFF] [(0x00FF, 0x01)] 0x00 0x00 0x00 0x20)) =
      some ⟨0x01, 0x00, 0x00, 0x20, 0x8002, 3, [.read 0x8000 0xA5, .read 0x8001 0xFF, .read 0x00FF 0x01]⟩ := by decide

/-- A3. -/
theorem test_lda_zpgx_corner :
    seen (step (start 0x8000 [0xB5, 0x80] [(0x0010, 0x02)] 0x00 0x90 0x00 0x20)) =
      some ⟨0x02, 0x90, 0x00, 0x20, 0x8002, 4, [.read 0x8000 0xB5, .read 0x8001 0x80, .read 0x0010 0x02]⟩ := by decide

/-- A4. -/
theorem test_lda_abs_corner :
    seen (step (start 0xFFFE [0xAD] [(0xFFFF, 0x00), (0x0000, 0x03), (0x0300, 0x44)] 0x00 0x00 0x00 0x20)) =
      some ⟨0x44, 0x00, 0x00, 0x20, 0x0001, 4, [.read 0xFFFE 0xAD, .read 0xFFFF 0x00, .read 0x0000 0x03, .read 0x0300 0x44]⟩ := by decide

/-- A8. -/
theorem test_lda_absx_corner :
    seen (step (start 0x8000 [0xBD, 0x01, 0x20] [(0x2100, 0x08)] 0x00 0xFF 0x00 0x20)) =
      some ⟨0x08, 0xFF, 0x00, 0x20, 0x8003, 5, [.read 0x8000 0xBD, .read 0x8001 0x01, .read 0x8002 0x20, .read 0x2100 0x08]⟩ := by decide

/-- A9. -/
theorem test_lda_absy_corner :
    seen (step (start 0x8000 [0xB9, 0xF0, 0x20] [(0x2110, 0x09)] 0x00 0x00 0x20 0x20)) =
      some ⟨0x09, 0x00, 0x20, 0x20, 0x8003, 5, [.read 0x8000 0xB9, .read 0x8001 0xF0, .read 0x8002 0x20, .read 0x2110 0x09]⟩ := by decide

/-- A13. -/
theorem test_lda_indx_corner :
    seen (step (start 0x8000 [0xA1, 0xFE] [(0x00FF, 0x00), (0x0000, 0x50), (0x5000, 0x0D)] 0x00 0x01 0x00 0x20)) =
      some ⟨0x0D, 0x01, 0x00, 0x20, 0x8002, 6, [.read 0x8000 0xA1, .read 0x8001 0xFE, .read 0x00FF 0x00, .read 0x0000 0x50, .read 0x5000 0x0D]⟩ := by decide

/-- A16. -/
theorem test_lda_indy_corner :
    seen (step (start 0x8000 [0xB1, 0x40] [(0x0040, 0xFF), (0x0041, 0xFF), (0x0000, 0x10)] 0x00 0x00 0x01 0x20)) =
      some ⟨0x10, 0x00, 0x01, 0x20, 0x8002, 6, [.read 0x8000 0xB1, .read 0x8001 0x40, .read 0x0040 0xFF, .read 0x0041 0xFF, .read 0x0000 0x10]⟩ := by decide

/-- M4. -/
theorem test_ldx_imm_corner :
    seen (step (start 0x8000 [0xA2, 0x00] [] 0x00 0x55 0x00 0x20)) =
      some ⟨0x00, 0x00, 0x00, 0x22, 0x8002, 2, [.read 0x8000 0xA2, .read 0x8001 0x00]⟩ := by decide

/-- B2. -/
theorem test_ldx_zpgy_corner :
    seen (step (start 0x8000 [0xB6, 0xFF] [(0x0000, 0x88)] 0x00 0x00 0x01 0x20)) =
      some ⟨0x00, 0x88, 0x01, 0xA0, 0x8002, 4, [.read 0x8000 0xB6, .read 0x8001 0xFF, .read 0x0000 0x88]⟩ := by decide

/-- A10. -/
theorem test_ldx_absy_corner :
    seen (step (start 0x8000 [0xBE, 0x80, 0x30] [(0x3100, 0x0A)] 0x00 0x00 0x80 0x20)) =
      some ⟨0x00, 0x0A, 0x80, 0x20, 0x8003, 5, [.read 0x8000 0xBE, .read 0x8001 0x80, .read 0x8002 0x30, .read 0x3100 0x0A]⟩ := by decide

/-- A11. -/
theorem test_ldy_absx_corner :
    seen (step (start 0x8000 [0xBC, 0x80, 0x30] [(0x3100, 0x0B)] 0x00 0x80 0x00 0x20)) =
      some ⟨0x00, 0x80, 0x0B, 0x20, 0x8003, 5, [.read 0x8000 0xBC, .read 0x8001 0x80, .read 0x8002 0x30, .read 0x3100 0x0B]⟩ := by decide

/-- M7. -/
theorem test_sta_zpg_corner :
    seen (step (start 0x8000 [0x85, 0x10] [] 0x00 0x00 0x00 0xE3)) =
      some ⟨0x00, 0x00, 0x00, 0xE3, 0x8002, 3, [.read 0x8000 0x85, .read 0x8001 0x10, .write 0x0010 0x00]⟩ := by decide

/-- S6. -/
theorem test_sta_absx_corner :
    seen (step (start 0x8000 [0x9D, 0xF0, 0x20] [] 0x00 0x20 0x00 0x20)) =
      some ⟨0x00, 0x20, 0x00, 0x20, 0x8003, 5, [.read 0x8000 0x9D, .read 0x8001 0xF0, .read 0x8002 0x20, .write 0x2110 0x00]⟩ := by decide

/-- M8. -/
theorem test_sta_absy_corner :
    seen (step (start 0x8000 [0x99, 0xF0, 0x20] [] 0x11 0x00 0x20 0x20)) =
      some ⟨0x11, 0x00, 0x20, 0x20, 0x8003, 5, [.read 0x8000 0x99, .read 0x8001 0xF0, .read 0x8002 0x20, .write 0x2110 0x11]⟩ := by decide

/-- M10. -/
theorem test_sta_indx_corner :
    seen (step (start 0x8000 [0x81, 0x3E] [(0x0040, 0x00), (0x0041, 0x02)] 0x33 0x02 0x00 0x20)) =
      some ⟨0x33, 0x02, 0x00, 0x20, 0x8002, 6, [.read 0x8000 0x81, .read 0x8001 0x3E, .read 0x0040 0x00, .read 0x0041 0x02, .write 0x0200 0x33]⟩ := by decide

/-- M9. -/
theorem test_sta_indy_corner :
    seen (step (start 0x8000 [0x91, 0x40] [(0x0040, 0xFF), (0x0041, 0x10)] 0x22 0x00 0x02 0x20)) =
      some ⟨0x22, 0x00, 0x02, 0x20, 0x8002, 6, [.read 0x8000 0x91, .read 0x8001 0x40, .read 0x0040 0xFF, .read 0x0041 0x10, .write 0x1101 0x22]⟩ := by decide

/-- M11. -/
theorem test_stx_zpgy_corner :
    seen (step (start 0x8000 [0x96, 0xFF] [] 0x00 0x44 0x02 0x20)) =
      some ⟨0x00, 0x44, 0x02, 0x20, 0x8002, 4, [.read 0x8000 0x96, .read 0x8001 0xFF, .write 0x0001 0x44]⟩ := by decide

/-- M12. -/
theorem test_sty_zpgx_corner :
    seen (step (start 0x8000 [0x94, 0xFF] [] 0x00 0x02 0x55 0x20)) =
      some ⟨0x00, 0x02, 0x55, 0x20, 0x8002, 4, [.read 0x8000 0x94, .read 0x8001 0xFF, .write 0x0001 0x55]⟩ := by decide

/-- M13. -/
theorem test_sta_abs_corner :
    seen (step (start 0x8000 [0x8D, 0x01, 0x80] [] 0x66 0x00 0x00 0x20)) =
      some ⟨0x66, 0x00, 0x00, 0x20, 0x8003, 4, [.read 0x8000 0x8D, .read 0x8001 0x01, .read 0x8002 0x80, .write 0x8001 0x66]⟩ := by decide

/-- K2. -/
theorem test_inc_zpg_corner :
    seen (step (start 0x8000 [0xE6, 0x10] [(0x0010, 0xFF)] 0x00 0x00 0x00 0x20)) =
      some ⟨0x00, 0x00, 0x00, 0x22, 0x8002, 5, [.read 0x8000 0xE6, .read 0x8001 0x10, .read 0x0010 0xFF, .write 0x0010 0x00]⟩ := by decide

/-- K7. -/
theorem test_inc_zpgx_corner :
    seen (step (start 0x8000 [0xF6, 0xFF] [(0x0001, 0x10)] 0x00 0x02 0x00 0x20)) =
      some ⟨0x00, 0x02, 0x00, 0x20, 0x8002, 6, [.read 0x8000 0xF6, .read 0x8001 0xFF, .read 0x0001 0x10, .write 0x0001 0x11]⟩ := by decide

/-- K9. -/
theorem test_inc_abs_corner :
    seen (step (start 0x8000 [0xEE, 0x01, 0x80] [] 0x00 0x00 0x00 0x20)) =
      some ⟨0x00, 0x00, 0x00, 0x20, 0x8003, 6, [.read 0x8000 0xEE, .read 0x8001 0x01, .read 0x8002 0x80, .read 0x8001 0x01, .write 0x8001 0x02]⟩ := by decide

/-- K5. -/
theorem test_inc_absx_corner :
    seen (step (start 0x8000 [0xFE, 0xF0, 0x20] [(0x2110, 0x41)] 0x00 0x20 0x00 0x20)) =
      some ⟨0x00, 0x20, 0x00, 0x20, 0x8003, 7, [.read 0x8000 0xFE, .read 0x8001 0xF0, .read 0x8002 0x20, .read 0x2110 0x41, .write 0x2110 0x42]⟩ := by decide

/-- K3. -/
theorem test_dec_zpg_corner :
    seen (step (start 0x8000 [0xC6, 0x10] [(0x0010, 0x00)] 0x00 0x00 0x00 0x63)) =
      some ⟨0x00, 0x00, 0x00, 0xE1, 0x8002, 5, [.read 0x8000 0xC6, .read 0x8001 0x10, .read 0x0010 0x00, .write 0x0010 0xFF]⟩ := by decide

/-- K6. -/
theorem test_dec_absx_corner :
    seen (step (start 0x8000 [0xDE, 0xFF, 0xFF] [(0x0000, 0x05)] 0x00 0x01 0x00 0x20)) =
      some ⟨0x00, 0x01, 0x00, 0x20, 0x8003, 7, [.read 0x8000 0xDE, .read 0x8001 0xFF, .read 0x8002 0xFF, .read 0x0000 0x05, .write 0x0000 0x04]⟩ := by decide

/-- K8. -/
theorem test_dec_abs_corner :
    seen (step (start 0x8000 [0xCE, 0x00, 0x04] [(0x0400, 0x80)] 0x00 0x00 0x00 0x20)) =
      some ⟨0x00, 0x00, 0x00, 0x20, 0x8003, 6, [.read 0x8000 0xCE, .read 0x8001 0x00, .read 0x8002 0x04, .read 0x0400 0x80, .write 0x0400 0x7F]⟩ := by decide

/-- K10. -/
theorem test_inx_imp_corner :
    seen (step (start 0x8000 [0xE8] [] 0x00 0xFF 0x00 0xE1)) =
      some ⟨0x00, 0x00, 0x00, 0x63, 0x8001, 2, [.read 0x8000 0xE8]⟩ := by decide

/-- K11. -/
theorem test_iny_imp_corner :
    seen (step (start 0x8000 [0xC8] [] 0x00 0x00 0x7F 0x20)) =
      some ⟨0x00, 0x00, 0x80, 0xA0, 0x8001, 2, [.read 0x8000 0xC8]⟩ := by decide

/-- K12. -/
theorem test_dex_imp_corner :
    seen (step (start 0x8000 [0xCA] [] 0x00 0x00 0x00 0x20)) =
      some ⟨0x00, 0xFF, 0x00, 0xA0, 0x8001, 2, [.read 0x8000 0xCA]⟩ := by decide

/-- K13. -/
theorem test_dey_imp_corner :
    seen (step (start 0x8000 [0x88] [] 0x00 0x00 0x01 0xA0)) =
      some ⟨0x00, 0x00, 0x00, 0x22, 0x8001, 2, [.read 0x8000 0x88]⟩ := by decide

/-- Vectors D1 to D15: A, the operand, P; then A and P after. -/
theorem test_adc_imm_vectors :
    ([(0x00, 0x00, 0x20, 0x00, 0x22), (0x00, 0x00, 0x21, 0x01, 0x20), (0x7F, 0x01, 0x20, 0x80, 0xE0), (0x80, 0x80, 0x20, 0x00, 0x63), (0xFF, 0x01, 0x20, 0x00, 0x23), (0xFF, 0x00, 0x21, 0x00, 0x23), (0xFF, 0xFF, 0x21, 0xFF, 0xA1), (0x50, 0x50, 0x20, 0xA0, 0xE0), (0x50, 0xD0, 0x20, 0x20, 0x21), (0xD0, 0x90, 0x20, 0x60, 0x61), (0xD0, 0xD0, 0x20, 0xA0, 0xA1), (0x01, 0xFF, 0x20, 0x00, 0x23), (0x80, 0x7F, 0x21, 0x00, 0x23), (0x7F, 0x7F, 0x21, 0xFF, 0xE0), (0x3F, 0x40, 0x21, 0x80, 0xE0)] : List (Byte × Byte × Byte × Byte × Byte)).all (fun v =>
      (adcResult v.1 v.2.1 (isSet flagC v.2.2.1), adcFlags v.1 v.2.1 v.2.2.1) == v.2.2.2) = true := by decide

/-- Vectors E1 to E13: A, the operand, P; then A and P after. -/
theorem test_sbc_imm_vectors :
    ([(0x01, 0x02, 0x21, 0xFF, 0xA0), (0x00, 0x00, 0x21, 0x00, 0x23), (0x00, 0x00, 0x20, 0xFF, 0xA0), (0x02, 0x01, 0x20, 0x00, 0x23), (0x50, 0xF0, 0x21, 0x60, 0x20), (0x50, 0xB0, 0x21, 0xA0, 0xE0), (0xD0, 0x70, 0x21, 0x60, 0x61), (0x80, 0x01, 0x21, 0x7F, 0x61), (0x7F, 0xFF, 0x21, 0x80, 0xE0), (0x00, 0x01, 0x21, 0xFF, 0xA0), (0xFF, 0xFF, 0x20, 0xFF, 0xA0), (0xFF, 0x00, 0x21, 0xFF, 0xA1), (0x40, 0x40, 0x21, 0x00, 0x23)] : List (Byte × Byte × Byte × Byte × Byte)).all (fun v =>
      (sbcResult v.1 v.2.1 (isSet flagC v.2.2.1), sbcFlags v.1 v.2.1 v.2.2.1) == v.2.2.2) = true := by decide

/-- Section 2.4: the decimal flag is ignored, and the flags outside NVZC are kept. -/
theorem test_adc_keeps_other_flags : adcResult 0x09 0x01 false = 0x0A ∧ adcFlags 0x09 0x01 0x28 = 0x28 ∧
    adcResult 0x00 0x01 true = 0x02 ∧ adcFlags 0x00 0x01 0xFD = 0x3C := by decide

/-! ### Resolvers that no opcode uses (B5, B6, B7, A20, A21, A24, A25) -/

/-- B5. -/
theorem test_ind_b5 :
    let r := resolve .ind (start 0x8001 [] [(0x8001, 0xFF), (0x8002, 0x02), (0x02FF, 0x34), (0x0200, 0x12), (0x0300, 0x56)] 0x00 0x00 0x00 0x20)
    r.1 = 0x1234 ∧ r.2.pc = 0x8003 := by decide

/-- B6. -/
theorem test_rel_b6 :
    let r := resolve .rel (start 0x8001 [] [(0x8001, 0x80)] 0x00 0x00 0x00 0x20)
    r.1 = 0x7F81 ∧ r.2.pc = 0x8002 := by decide

/-- B7. -/
theorem test_rel_b7 :
    let r := resolve .rel (start 0x8001 [] [(0x8001, 0x7F)] 0x00 0x00 0x00 0x20)
    r.1 = 0x8080 ∧ r.2.pc = 0x8002 := by decide

/-- A20. -/
theorem test_ind_a20 :
    let r := resolve .ind (start 0x8001 [] [(0x8001, 0xFF), (0x8002, 0xFF), (0xFFFF, 0x78), (0xFF00, 0x56)] 0x00 0x00 0x00 0x20)
    r.1 = 0x5678 ∧ r.2.pc = 0x8003 := by decide

/-- A21. -/
theorem test_ind_a21 :
    let r := resolve .ind (start 0xFFFF [] [(0xFFFF, 0x10), (0x0000, 0x02), (0x0210, 0xCD), (0x0211, 0xAB)] 0x00 0x00 0x00 0x20)
    r.1 = 0xABCD ∧ r.2.pc = 0x0001 := by decide

/-- A24. -/
theorem test_rel_a24 :
    let r := resolve .rel (start 0x0010 [] [(0x0010, 0x80)] 0x00 0x00 0x00 0x20)
    r.1 = 0xFF90 ∧ r.2.pc = 0x0011 := by decide

/-- A25. -/
theorem test_rel_a25 :
    let r := resolve .rel (start 0xFFF0 [] [(0xFFF0, 0x7F)] 0x00 0x00 0x00 0x20)
    r.1 = 0x006F ∧ r.2.pc = 0xFFF1 := by decide

/-! ### The fault, reset, flags and the cycle counter (sections 1.3, 2.7, 2.8) -/

/-- The vector's view of a step that ends in the fault. -/
def seenFault : Host.Outcome State Fault Refusal → Option (Byte × Seen)
  | .fault (.unimplementedOpcode op t) => some (op, ⟨t.a, t.x, t.y, t.p, t.pc, t.cycles, t.trace.reverse⟩)
  | .next _ => none
  | .refused _ => none

/-- U1. -/
theorem test_fault_brk :
    seenFault (step ((start 0x8000 [0x00, 0x12] [] 0x11 0x22 0x33 0xE7).setCycles 100)) =
      some (0x00, ⟨0x11, 0x22, 0x33, 0xE7, 0x8001, 100, [.read 0x8000 0x00]⟩) := by decide

/-- U4. -/
theorem test_fault_wraps :
    seenFault (step (start 0xFFFF [0xFF] [] 0x00 0x00 0x00 0x20)) =
      some (0xFF, ⟨0x00, 0x00, 0x00, 0x20, 0x0000, 0, [.read 0xFFFF 0xFF]⟩) := by decide

/-- Z1. -/
theorem test_reset_dirty :
    let t := resetCore { start 0x1234 [] [(0xFFFC, 0x00), (0xFFFD, 0x80)] 0x55 0x66 0x77 0xFF with
      sp := 0x00, cycles := 99 }
    (t.a, t.x, t.y, t.sp, t.p, t.pc, t.cycles) = (0x00, 0x00, 0x00, 0xFD, 0x20, 0x8000, 0) ∧
    t.trace = [.read 0xFFFC 0x00, .read 0xFFFD 0x80] := by decide

/-- Z4. -/
theorem test_flag_helpers :
    let s := start 0x8000 [] [] 0x00 0x00 0x00 0x20
    let s1 := hostSetFlags 0x81 s
    let s2 := hostClearFlags 0x01 s1
    s1.p = 0xA1 ∧ s2.p = 0xA0 ∧ hostIsFlagSet 0x80 s2 = true ∧ hostIsFlagSet 0x81 s2 = false ∧
    hostIsFlagSet 0x00 s2 = true ∧ (hostClearFlags 0x00 s2).p = 0xA0 := by decide

/-- I-setzn. -/
theorem test_setzn : setZN 0x00 0xFF = 0x7F ∧ setZN 0x80 0xFF = 0xFD ∧ setZN 0x01 0xFF = 0x7D ∧
    setZN 0x00 0x00 = 0x02 ∧ setZN 0x80 0x00 = 0x80 := by decide

/-- Z5, Z6: the cycle counter wraps. -/
theorem test_cycles_wrap :
    ((seen (step ((start 0x8000 [0xA9, 0x01] [] 0x00 0x00 0x00 0x20).setCycles 0xFFFFFFFFFFFFFFFF))).map
      (fun v => v.cycles)) = some 1 ∧
    ((seen (step ((start 0x8000 [0xBD, 0xFF, 0x20] [] 0x00 0x01 0x00 0x20).setCycles
      0xFFFFFFFFFFFFFFFE))).map (fun v => v.cycles)) = some 3 := by decide

/-- Z7: U stays as the host set it. -/
theorem test_host_clears_unused_bit :
    ((seen (step (start 0x8000 [0xA9, 0x01] [] 0x00 0x00 0x00 0x00))).map (fun v => v.p)) = some 0x00 := by
  decide

/-- The first instruction after reset, as the host asks for it. -/
theorem test_first_instruction :
    ((seen (step (State.reset.withFetchWord 16 0x80A9))).map (fun v => (v.a, v.p))) =
      some (0x80, 0xA0) := by decide

/-! ### Witnesses: states and operands that meet the hypotheses of the statements, together -/

/-- S5: LDA absolute,X about to cross a page, on a flat bus, coherent with zeros elsewhere. -/
def crossing2110 : State := start 0x8000 [0xBD, 0xF0, 0x20] [(0x2110, 0x42)] 0x00 0x20 0x00 0x20

/-- The same after a host write of its code, with its history. -/
def written : State := hostWriteAll (bytesAt 0x0000 [0xA9, 0x80, 0x8D, 0x34, 0x12]) State.reset

/-- An empty entry at PC. -/
def emptyAtPc : State := start 0x8000 [0xEA] [] 0x11 0x22 0x33 0xE7

/-- The state after the step. -/
def after (s : State) : State := hostTick s

/-- Two prior states that differ in every register (ResetIgnoresPriorRegisters). -/
theorem witness_resetIgnoresPriorRegisters :
    let s := crossing2110
    let t : State := { s with a := 0x55, x := 0x66, y := 0x77, sp := 0x00, p := 0xFF, pc := 0x1234, cycles := 99 }
    s.busKind = .flat ∧ t.busKind = .flat ∧ t.mem = s.mem ∧ t.cpcp = s.cpcp ∧ t.faults = s.faults ∧
      t.a ≠ s.a := by decide

/-- A mask that is not empty, and a mask all of whose bits are set (FlagUnitSetsClearsTests). -/
theorem witness_flagUnit : (0x81 : Byte) ≠ 0 ∧ hostIsFlagSet 0x20 State.reset = true ∧
    ∀ i, (0x20 : Byte).getLsbD i = true → State.reset.p.getLsbD i = true :=
  ⟨by decide, by decide, fun _ h => h⟩

/-- A flat bus and two addresses (FlatBusReturnsLastWrite); the statements whose only hypothesis is the
flat bus are met by the same state, and by one at the top of the address space. -/
theorem witness_flat : crossing2110.busKind = .flat ∧ (0x0000 : Addr) ≠ 0xFFFF ∧
    (start 0xFFFF [0x10, 0x02] [] 0x00 0xFF 0xFF 0x20).busKind = .flat := by decide

/-- An open bus (the clause of StoredAt for it). -/
theorem witness_openBus : { State.reset with busKind := .openBus }.busKind = .openBus := rfl

/-- Two canonical memories, made in different orders, that read the same (CanonicalMemoriesAreDetermined). -/
theorem witness_canonicalMemories :
    let m := (Memory.write (Memory.write [] 0xFFFF 0x01) 0x0000 0x02)
    let n := (Memory.write (Memory.write [] 0x0000 0x02) 0xFFFF 0x01)
    m.wf = true ∧ n.wf = true ∧ ∀ addr : Addr, m.read addr.toNat = n.read addr.toNat :=
  ⟨by decide, by decide, fun _ => rfl⟩

/-- A canonical state whose step completes, and one whose step faults (TickKeepsCanonicalMemory,
TickHasTwoOutcomes, HostTicksOnAfterFault, CycleCostOfATick with k = 1, BusAccessesOfATick,
PcAdvancesByLength, SilentStateIsNeitherReadNorWritten, CpcpIsUnobservable, FlatTickIgnoresHistory). -/
theorem witness_step_completes : Canonical crossing2110 ∧ crossing2110.busKind = .flat ∧
    step crossing2110 = .next (after crossing2110) ∧
    Crosses .absx (crossing2110.afterRead crossing2110.pc).advancePc :=
  ⟨by unfold Canonical; decide, by decide, by rfl, by unfold Crosses; decide⟩

theorem witness_step_faults : Canonical emptyAtPc ∧ lookup (emptyAtPc.busByte emptyAtPc.pc) = none ∧
    step emptyAtPc = .fault (.unimplementedOpcode 0xEA (after emptyAtPc)) :=
  ⟨by unfold Canonical; decide, by rfl, by rfl⟩

/-- A step that completes without a crossing: X = 0x0F ends on the last byte of the page, X = 0x10 on
the first byte of the next (CycleCostOfATick with k = 0, and its boundary). -/
theorem witness_cost_boundary :
    ¬Crosses .absx (start 0x8001 [0xF0, 0x20] [] 0x00 0x0F 0x00 0x20) ∧
    Crosses .absx (start 0x8001 [0xF0, 0x20] [] 0x00 0x10 0x00 0x20) ∧
    Crosses .absy (start 0x8001 [0xF0, 0x20] [] 0x00 0x00 0x10 0x20) ∧
    Crosses .indy (start 0x8001 [0x30] [(0x0030, 0xFF), (0x0031, 0x10)] 0x00 0x00 0x01 0x20) ∧
    ¬Crosses .indy (start 0x8001 [0x30] [(0x0030, 0xFE), (0x0031, 0x10)] 0x00 0x00 0x01 0x20) := by
  refine ⟨?_, ?_, ?_, ?_, ?_⟩ <;> unfold Crosses <;> decide

/-- A coherent flat bus whose step completes, and one whose step faults (TickKeepsFlatBusCoherent). -/
theorem witness_coherent : FlatCoherent (fun _ => 0x00) State.reset ∧
    step State.reset = .fault (.unimplementedOpcode 0x00 (after State.reset)) :=
  ⟨⟨rfl, ⟨rfl, rfl, trivial⟩, fun _ => rfl⟩, by rfl⟩

theorem witness_coherent_completes : FlatCoherent (fun addr => if addr = 0x0000 then 0xA9 else 0x00)
      { State.reset with mem := [(0x0000, 0xA9)] } ∧
    step { State.reset with mem := [(0x0000, 0xA9)] } =
      .next (after { State.reset with mem := [(0x0000, 0xA9)] }) := by
  refine ⟨⟨rfl, ⟨rfl, rfl, trivial⟩, fun addr => ?_⟩, by rfl⟩
  simp only [Memory.read, flatAnswer, lastWrite, State.reset, Option.getD_none, Config.unlistedByte]
  by_cases h : addr = 0x0000
  · simp [h]
  · rw [if_neg h, if_neg]; intro e; exact h (BitVec.eq_of_toNat_eq e.symm)

/-- Instructions of each length, well formed, and bytes that decode to them with a rest
(DecodeOfEncode, DecodedBytesAreItsEncoding). -/
theorem witness_decode : Instr.dey.wellFormed = true ∧
    decode [0x88, 0x00] = .ok (.dey, [0x00]) ∧ decode [0x65, 0xFF, 0x01] = .ok (.adcZpg 0xFF, [0x01]) ∧
    decode [0xDE, 0xFF, 0xFF] = .ok (.decAbsx 0xFFFF, []) := by decide

/-- Implemented entries (BaseCyclesFollowTheTable; with IMM, ImmediateResolver; with ZPGY,
ZeroPageResolvers). -/
theorem witness_entry :
    ((decodeTable 0xFE).handler = some .inc ∧ (decodeTable 0xFE).resolver = some .absx) ∧
    ((decodeTable 0xE9).handler = some .sbc ∧ (decodeTable 0xE9).resolver = some .imm) ∧
    ((decodeTable 0x96).handler = some .stx ∧ (decodeTable 0x96).resolver = some .zpgy) := by decide

/-- The bytes at PC decode, for each length, PC wrapping at the top for the last
(StepRunsDecodedInstruction). -/
theorem witness_bytes_at_pc :
    (let s := start 0x8000 [0xE8, 0x00, 0x00] [] 0x00 0x00 0x00 0x20
     s.busKind = .flat ∧ Instr.inx.wellFormed = true ∧
     decode [s.mem.read s.pc.toNat, s.mem.read (s.pc + 1).toNat, s.mem.read (s.pc + 2).toNat] =
       .ok (.inx, [0x00, 0x00])) ∧
    (let s := start 0x8000 [0xE5, 0x40, 0x00] [] 0x00 0x00 0x00 0x20
     decode [s.mem.read s.pc.toNat, s.mem.read (s.pc + 1).toNat, s.mem.read (s.pc + 2).toNat] =
       .ok (.sbcZpg 0x40, [0x00])) ∧
    (let s := start 0xFFFE [0x8C, 0x34, 0x12] [] 0x00 0x00 0x00 0x20
     s.busKind = .flat ∧
     decode [s.mem.read s.pc.toNat, s.mem.read (s.pc + 1).toNat, s.mem.read (s.pc + 2).toNat] =
       .ok (.styAbs 0x1234, [])) := by decide

/-- A row of each shape, selected by the byte at PC (StepFetchesByShape). -/
theorem witness_shapes :
    (∃ row, lookup ((start 0x8000 [0xCA] [] 0x00 0x00 0x00 0x20).busByte 0x8000) = some row ∧
      row.shape = .implied .dex) ∧
    (∃ row, lookup ((start 0x8000 [0xA2, 0x01] [] 0x00 0x00 0x00 0x20).busByte 0x8000) = some row ∧
      row.shape = .byteOperand .ldxImm) ∧
    (∃ row, lookup (crossing2110.busByte crossing2110.pc) = some row ∧
      row.shape = .wordOperand .ldaAbsx) :=
  ⟨⟨_, by rfl, rfl⟩, ⟨_, by rfl, rfl⟩, ⟨_, by rfl, rfl⟩⟩

/-- A run of two steps from a state with no recorded fault (RunsKeepStackPointerAndUnusedBit). -/
theorem witness_run : Host.Core.run Sys2Proof.core 2 written = .next (after (after written)) ∧
    written.faults = [] := ⟨by rfl, by rfl⟩

/-- An instruction of a row that completes: one whose handler writes no flag, one that writes all four
(FlagsWrittenAsTabled, DecimalFlagIsIgnored, OverflowIsSignedOverflow). -/
theorem witness_rows :
    (∃ row t, lookup ((encode (.staZpg 0x10)).headD 0) = some row ∧ row.handler = .sta ∧
      exec (.staZpg 0x10) crossing2110 = .next t) ∧
    (∃ row t, lookup ((encode (.adcImm 0x7F)).headD 0) = some row ∧ row.handler = .adc ∧
      exec (.adcImm 0x7F) crossing2110 = .next t) ∧
    (∃ row t, lookup ((encode (.sbcImm 0x80)).headD 0) = some row ∧ row.handler = .sbc ∧
      exec (.sbcImm 0x80) crossing2110 = .next t) :=
  ⟨⟨_, _, by rfl, by rfl, rfl⟩, ⟨_, _, by rfl, by rfl, rfl⟩, ⟨_, _, by rfl, by rfl, rfl⟩⟩

/-- IMM's operand at the top of the address space (ImmediateResolver). -/
theorem witness_top : (start 0xFFFF [] [] 0x00 0x00 0x00 0x20).pc = 0xFFFF := by decide

/-- A store over the bytes at PC of an implemented opcode (E8) and of an empty one (EA)
(NextFetchSeesTheStore). -/
theorem witness_store_at_pc :
    (let s := start 0x8000 [] [] 0xE8 0x00 0x00 0x20
     s.busKind = .flat ∧ (∃ row, lookup s.a = some row) ∧ ∃ t, exec (.staAbs s.pc) s = .next t) ∧
    (let s := start 0x8000 [] [] 0xEA 0x00 0x00 0x20
     s.busKind = .flat ∧ lookup s.a = none ∧ ∃ t, exec (.staAbs s.pc) s = .next t) :=
  ⟨⟨by decide, ⟨_, by rfl⟩, _, rfl⟩, ⟨by decide, by rfl, _, rfl⟩⟩

/-- A harness start with an address it does not write (HarnessSeedsTheState). -/
theorem witness_harness : State.reset.busKind = .flat ∧ (0xFFFF : Addr) ≠ 0x0000 ∧
    ∀ c ∈ ([(0x0010, 0x01)] : List (Addr × Byte)), c.1 ≠ (0xFFFF : Addr) :=
  ⟨rfl, by decide, fun c h => by rw [List.mem_singleton.1 h]; decide⟩

end Sys2Proof.Tests
end

