-- ==== Sys2Proof/Proofs/StateFamily.lean ====
section
/-!
The statements of 10_state.md about Reset, the flag unit, the setters and the host's bus port, with the
laws of the flag masks and of `resetCore` that they rest on.
-/

namespace Sys2Proof.Machine

open Sys2Proof.Claims

/-! ### The flag unit, bit by bit (10_state.md R32, R33) -/

theorem setMask_getLsbD (m p : Byte) (i : Nat) :
    (setMask m p).getLsbD i = (p.getLsbD i || m.getLsbD i) := BitVec.getLsbD_or

theorem clearMask_getLsbD (m p : Byte) (i : Nat) :
    (clearMask m p).getLsbD i = (p.getLsbD i && !m.getLsbD i) := by
  rw [clearMask, BitVec.getLsbD_and, BitVec.getLsbD_not]
  by_cases hi : i < 8
  · simp [hi]
  · simp [BitVec.getLsbD_of_ge p i (by omega)]

theorem isSet_iff_getLsbD (m p : Byte) :
    isSet m p = true ↔ ∀ i, m.getLsbD i = true → p.getLsbD i = true := by
  rw [isSet, beq_iff_eq]
  constructor
  · intro h i hi
    rw [← h, BitVec.getLsbD_and, Bool.and_eq_true] at hi
    exact hi.1
  · intro h
    refine BitVec.eq_of_getLsbD_eq fun i _ => ?_
    rw [BitVec.getLsbD_and, Bool.and_eq_right_iff_imp]
    exact h i

theorem isSet_setMask (m p : Byte) : isSet m (setMask m p) = true :=
  (isSet_iff_getLsbD _ _).2 fun i hi => by simp [setMask_getLsbD, hi]

theorem isSet_zero (p : Byte) : isSet 0 p = true :=
  (isSet_iff_getLsbD _ _).2 fun i hi => by simp at hi

/-- A mask with a bit in it fails the test at that bit once it is cleared. -/
theorem isSet_clearMask {m : Byte} (hm : m ≠ 0) (p : Byte) : isSet m (clearMask m p) = false := by
  rw [Bool.eq_false_iff]
  intro h
  refine hm (BitVec.eq_of_getLsbD_eq fun i _ => ?_)
  rw [BitVec.ofNat_eq_ofNat, BitVec.getLsbD_zero, Bool.eq_false_iff]
  intro hi
  simpa [clearMask_getLsbD, hi] using (isSet_iff_getLsbD _ _).1 h i hi

theorem flagZ_getLsbD (i : Nat) : flagZ.getLsbD i = decide (i = 1) := by
  rw [show flagZ = BitVec.twoPow 8 1 from rfl, BitVec.getLsbD_twoPow]
  simp [eq_comm]

theorem flagN_getLsbD (i : Nat) : flagN.getLsbD i = decide (i = 7) := by
  rw [show flagN = BitVec.twoPow 8 7 from rfl, BitVec.getLsbD_twoPow]
  simp [eq_comm]

/-- One bit of P after SetZN; the mask 0x82 that it clears first is Z and N together. -/
theorem setZN_getLsbD (v p : Byte) (i : Nat) :
    (setZN v p).getLsbD i =
      if i = 1 then decide (v = 0) else if i = 7 then v.getLsbD 7 else p.getLsbD i := by
  have both : (0x82 : Byte) = flagZ ||| flagN := rfl
  unfold setZN
  split <;> split <;>
    simp only [setMask_getLsbD, clearMask_getLsbD, both, BitVec.getLsbD_or, flagZ_getLsbD,
      flagN_getLsbD] <;>
    grind

theorem setZN_ZNof (v p : Byte) : ZNof v p (setZN v p) := by
  refine ⟨?_, ?_, fun i h1 h7 => ?_⟩ <;> rw [setZN_getLsbD]
  · rfl
  · rfl
  · rw [if_neg h1, if_neg h7]

/-- A byte whose bit 7 is set is not 0. -/
theorem setZN_not_both (v p : Byte) :
    ¬((setZN v p).getLsbD 1 = true ∧ (setZN v p).getLsbD 7 = true) := by
  obtain ⟨hz, hn, -⟩ := setZN_ZNof v p
  rw [hz, hn, decide_eq_true_eq]
  rintro ⟨rfl, h7⟩
  exact Bool.noConfusion h7

/-! ### Reset (10_state.md R35, 70_reset_and_hazards.md R270) -/

@[simp] theorem resetCore_a (s : State) : (resetCore s).a = 0x00 := rfl
@[simp] theorem resetCore_x (s : State) : (resetCore s).x = 0x00 := rfl
@[simp] theorem resetCore_y (s : State) : (resetCore s).y = 0x00 := rfl
@[simp] theorem resetCore_sp (s : State) : (resetCore s).sp = 0xFD := rfl
@[simp] theorem resetCore_p (s : State) : (resetCore s).p = 0x20 := rfl
@[simp] theorem resetCore_cycles (s : State) : (resetCore s).cycles = 0 := rfl
@[simp] theorem resetCore_mem (s : State) : (resetCore s).mem = s.mem := rfl

/-- On any bus, PC is the word of Reset's two reads; the second answer may depend on the first read. -/
theorem resetCore_pc (s : State) :
    (resetCore s).pc = concat (s.busByte 0xFFFD) ((s.afterRead 0xFFFD).busByte 0xFFFC) := rfl

theorem resetCore_pc_flat {s : State} (h : s.busKind = .flat) :
    (resetCore s).pc.toNat = (s.mem.read 0xFFFD).toNat * 256 + (s.mem.read 0xFFFC).toNat := by
  have hi : s.busByte 0xFFFD = s.mem.read 0xFFFD := s.busByte_flat h 0xFFFD
  have lo : (s.afterRead 0xFFFD).busByte 0xFFFC = s.mem.read 0xFFFC :=
    State.busByte_flat (s := s.afterRead 0xFFFD) h 0xFFFC
  rw [resetCore_pc, concat_toNat, hi, lo]

/-! ### The statements -/

/-- Settles O1: each register is written by Reset, PC comes from its two reads, and it writes no memory. -/
theorem resetLeavesStatedValues : Obligations.ResetLeavesStatedValues := fun s =>
  ⟨resetCore_a s, resetCore_x s, resetCore_y s, resetCore_sp s, resetCore_p s, resetCore_cycles s,
    resetCore_pc_flat, fun addr => by rw [resetCore_mem]⟩

/-- Settles O5: the laws of the masks, read off P; a flag operation is a write of P. -/
theorem flagUnitSetsClearsTests : Obligations.FlagUnitSetsClearsTests := fun m s =>
  ⟨setMask_getLsbD m s.p, clearMask_getLsbD m s.p, isSet_iff_getLsbD m s.p, isSet_setMask m s.p,
    fun hm => isSet_clearMask hm s.p, isSet_zero s.p, rfl, rfl⟩

/-- Settles O6: the two flags are written one by one, and a byte with bit 7 set is not 0. -/
theorem setZNWritesOnlyZAndN : Obligations.SetZNWritesOnlyZAndN := fun v p =>
  ⟨setZN_ZNof v p, setZN_not_both v p⟩

/-- Settles O7: each setter is one field update, which writing the old value back undoes. -/
theorem settersWriteOneRegister : Obligations.SettersWriteOneRegister := fun s v w c =>
  ⟨s.setA_a v, rfl, s.setX_x v, rfl, s.setY_y v, rfl, s.setSp_sp v, rfl, s.setP_p v, rfl,
    s.setPc_pc w, rfl, s.setCycles_cycles c, rfl⟩

/-- Settles O8: the host's operations are the bus port's, which write the history and the memory. -/
theorem hostAccessIsOneBusAccess : Obligations.HostAccessIsOneBusAccess := fun s addr v =>
  ⟨s.busRead_fst addr, s.busRead_snd addr, s.busWrite_trace addr v, rfl⟩

end Sys2Proof.Machine
end

