-- ==== Sys2Proof/Proofs/EncodingFamily.lean ====
section
/-!
The statements of 30_encoding.md about the table's costs and an instruction's length, with the facts
about the 59 rows and the frame of `exec` that they rest on.
-/

/-! ### What no instruction touches (the frame of `Untouched`) -/

namespace Sys2Proof.Claims

open Sys2Proof.Machine

theorem Untouched.trans {s t u : State} (h : Untouched s t) (k : Untouched t u) : Untouched s u := by
  obtain ⟨hsp, hpc, hbus, hfaults⟩ := h
  obtain ⟨ksp, kpc, kbus, kfaults⟩ := k
  exact ⟨ksp.trans hsp, kpc.trans hpc, kbus.trans hbus, kfaults.trans hfaults⟩

/-- Address resolution touches none of it. -/
theorem Untouched.of_readsOnly {s t : State} (h : ReadsOnly s t) : Untouched s t :=
  ⟨h.sp, h.pc, h.busKind, h.faults⟩

theorem setCpcp_untouched (s : State) (b : Bool) : Untouched s (s.setCpcp b) := ⟨rfl, rfl, rfl, rfl⟩

theorem addCycles_untouched (s : State) (n : Nat) : Untouched s (s.addCycles n) := ⟨rfl, rfl, rfl, rfl⟩

/-- The frame of an opcode rule keeps what its operand form and its handler keep. -/
theorem perform_untouched {resolver : State → Addr × State} {handler : Addr → State → State}
    (hr : ∀ u, ReadsOnly u (resolver u).2) (hh : ∀ ea u, Untouched u (handler ea u))
    {penalty : Bool} {n : Nat} {s : State} : Untouched s (perform penalty resolver handler n s) :=
  (((setCpcp_untouched s penalty).trans (.of_readsOnly (hr _))).trans (hh _ _)).trans
    (addCycles_untouched _ n)

theorem performDirect_untouched {effect : State → State} (he : ∀ u, Untouched u (effect u))
    {penalty : Bool} {n : Nat} {s : State} : Untouched s (performDirect penalty effect n s) :=
  ((setCpcp_untouched s penalty).trans (he _)).trans (addCycles_untouched _ n)

/-- Every instruction completes and leaves S, PC, the bus's kind and the record of faults. The cases go by
operand form: a handler writes A, X, Y, P and the bus alone, which holds of each by definition. -/
theorem exec_next_untouched (i : Instr) (s : State) : ∃ t, exec i s = .next t ∧ Untouched s t := by
  cases i with
  | ldaImm | ldxImm | ldyImm | adcImm | sbcImm | inx | iny | dex | dey =>
    refine ⟨_, rfl, performDirect_untouched ?_⟩
    exact fun _ => ⟨rfl, rfl, rfl, rfl⟩
  | ldaZpg | ldxZpg | ldyZpg | staZpg | stxZpg | styZpg | adcZpg | sbcZpg | incZpg | decZpg
  | ldaZpgx | ldyZpgx | staZpgx | styZpgx | adcZpgx | sbcZpgx | incZpgx | decZpgx
  | ldxZpgy | stxZpgy
  | ldaAbs | ldxAbs | ldyAbs | staAbs | stxAbs | styAbs | adcAbs | sbcAbs | incAbs | decAbs =>
    refine ⟨_, rfl, perform_untouched ?_ ?_⟩
    exacts [ReadsOnly.refl, fun _ _ => ⟨rfl, rfl, rfl, rfl⟩]
  | ldaAbsx | ldyAbsx | staAbsx | adcAbsx | sbcAbsx | incAbsx | decAbsx =>
    refine ⟨_, rfl, perform_untouched ?_ ?_⟩
    exacts [eaAbsx_readsOnly _, fun _ _ => ⟨rfl, rfl, rfl, rfl⟩]
  | ldaAbsy | ldxAbsy | staAbsy | adcAbsy | sbcAbsy =>
    refine ⟨_, rfl, perform_untouched ?_ ?_⟩
    exacts [eaAbsy_readsOnly _, fun _ _ => ⟨rfl, rfl, rfl, rfl⟩]
  | ldaIndx | staIndx | adcIndx | sbcIndx =>
    refine ⟨_, rfl, perform_untouched ?_ ?_⟩
    exacts [eaIndx_readsOnly _, fun _ _ => ⟨rfl, rfl, rfl, rfl⟩]
  | ldaIndy | staIndy | adcIndy | sbcIndy =>
    refine ⟨_, rfl, perform_untouched ?_ ?_⟩
    exacts [eaIndy_readsOnly _, fun _ _ => ⟨rfl, rfl, rfl, rfl⟩]

theorem exec_untouched {i : Instr} {s t : State} (h : exec i s = .next t) : Untouched s t := by
  obtain ⟨u, hu, frame⟩ := exec_next_untouched i s
  rw [hu] at h
  cases h
  exact frame

end Sys2Proof.Claims

namespace Sys2Proof.Machine

open Sys2Proof.Claims

theorem exec_pc {i : Instr} {s t : State} (h : exec i s = .next t) : t.pc = s.pc := by
  obtain ⟨-, hpc, -, -⟩ := exec_untouched h
  exact hpc

/-! ### The decode table, by rows (30_encoding.md R80, R84) -/

theorem decodeTable_of_row {op : Byte} {row : Row} (h : lookup op = some row) :
    decodeTable op = row.entry := by
  simp [decodeTable, h]

theorem decodeTable_of_empty {op : Byte} (h : lookup op = none) :
    decodeTable op = .empty op := by
  simp [decodeTable, h]

/-- An entry with a handler is the entry of a row. -/
theorem decodeTable_handler_cases {op : Byte} {h : Handler} (hh : (decodeTable op).handler = some h) :
    ∃ row ∈ rows, decodeTable op = row.entry := by
  cases hl : lookup op with
  | none => rw [decodeTable_of_empty hl] at hh; cases hh
  | some row => exact ⟨row, (lookup_mem hl).1, decodeTable_of_row hl⟩

/-- R82, row by row. -/
theorem rows_cost : ∀ row ∈ rows,
    row.baseCycles = costRule row.handler row.resolver ∧ row.penalty = !row.handler.writesMemory := by
  decide

/-- R71, row by row: the operand bytes that the fetch reads are those of the resolver's format. -/
theorem rows_operandBytes : ∀ row ∈ rows, row.shape.operandBytes = row.resolver.operandBytes := by
  decide

/-! ### How far the fetch moves PC (30_encoding.md R71, R73) -/

theorem fetchOperand_pc (shape : Shape) (s : State) :
    (fetchOperand shape s).2.pc = s.pc + BitVec.ofNat 16 shape.operandBytes := by
  cases shape with
  | implied i => exact (BitVec.add_zero s.pc).symm
  | byteOperand f => rfl
  | wordOperand f => exact BitVec.add_assoc s.pc 1 1

/-- A completed Tick moves PC past the opcode and the operand bytes of its row's resolver. -/
theorem step_next_pc {s t : State} (h : step s = .next t) :
    ∃ row, lookup (s.busByte s.pc) = some row ∧
      t.pc = s.pc + BitVec.ofNat 16 (1 + row.resolver.operandBytes) := by
  obtain ⟨row, hl, hx⟩ := step_next_cases h
  have bytes := rows_operandBytes row (lookup_mem hl).1
  refine ⟨row, hl, ?_⟩
  calc t.pc
      _ = s.pc + 1 + BitVec.ofNat 16 row.shape.operandBytes := (exec_pc hx).trans (fetchOperand_pc _ _)
      _ = s.pc + BitVec.ofNat 16 (1 + row.resolver.operandBytes) := by
        rw [bytes, BitVec.ofNat_add, BitVec.add_assoc]; rfl

theorem step_fault_pc {s t : State} {op : Byte} (h : step s = .fault (.unimplementedOpcode op t)) :
    t.pc = s.pc + 1 := by
  obtain ⟨-, -, rfl⟩ := step_fault_cases h
  rfl

/-! ### The statements -/

/-- Settles O28: `exec` leaves PC, so the fetch alone moves it, by the bytes of the row's shape. -/
theorem pcAdvancesByLength : Obligations.PcAdvancesByLength := by
  intro s
  refine ⟨fun t ht => ?_, fun op t ht => step_fault_pc ht⟩
  obtain ⟨row, hl, hpc⟩ := step_next_pc ht
  exact ⟨row.resolver, by rw [decodeTable_of_row hl]; rfl, hpc⟩

/-- Settles O19: an implemented entry is the entry of one of the 59 rows, which R82 holds of. -/
theorem baseCyclesFollowTheTable : Obligations.BaseCyclesFollowTheTable := by
  intro op h r hh hr
  obtain ⟨row, mem, he⟩ := decodeTable_handler_cases hh
  rw [he] at hh hr ⊢
  cases hh
  cases hr
  exact rows_cost row mem

end Sys2Proof.Machine
end

