-- ==== Sys2Proof/Proofs/EngineFamily.lean ====
section
/-!
The statements of 40_engine_addressing.md about the Tick, its cost and the resolvers at PC. They rest on
one fact about the 59 rows: to run the fetched instruction is to run the row's resolver and handler.
-/

namespace Sys2Proof.Machine

open Sys2Proof.Claims

/-! ### The fetched instruction runs its row's resolver and handler (40_engine_addressing.md R100) -/

/-- For one row (log entry 7): fetching its operand and running the instruction it gives is steps 4 to 7
of R100, with its resolver reading that operand at PC. -/
def RunsAsTabled (row : Row) : Prop :=
  ∀ s : State, exec (fetchOperand row.shape s).1 (fetchOperand row.shape s).2 =
    .next (perform row.penalty (resolve row.resolver) (runHandler row.handler) row.baseCycles s)

section
variable {op : Byte} {h : Handler} {r : Resolver} {n : Nat} {penalty : Bool}

/-- Without operand, IMP gives an address that the handler ignores (R111). -/
theorem RunsAsTabled.implied {i : Instr} (effect : State → State)
    (handler : ∀ ea s, runHandler h ea s = effect s := by intros; rfl)
    (meaning : ∀ s, exec i s = .next (performDirect penalty effect n s) := by intros; rfl) :
    RunsAsTabled ⟨op, h, .imp, n, penalty, .implied i⟩ := by
  intro s
  simp only [fetchOperand, meaning, performDirect, perform, resolve, handler]

/-- The byte that the fetch read at PC is the one the handler reads at IMM's address; reading it,
advancing PC and setting cpcp commute. -/
theorem RunsAsTabled.imm {f : Byte → Instr} (effect : Byte → State → State)
    (handler : ∀ ea s, runHandler h ea s = effect (s.busByte ea) (s.afterRead ea) := by intros; rfl)
    (meaning : ∀ b s, exec (f b) s = .next (performDirect penalty (effect b) n s) := by intros; rfl) :
    RunsAsTabled ⟨op, h, .imm, n, penalty, .byteOperand f⟩ := by
  intro s
  simp only [fetchOperand, meaning, performDirect, perform, resolve, handler]
  rfl

/-- A resolver that fetches one byte goes on as the instruction's operand form; the fetch does not see
cpcp. -/
theorem RunsAsTabled.byte {f : Byte → Instr} (form : Byte → State → Addr × State)
    (resolver : ∀ s, resolve r s = form s.fetchByte.1 s.fetchByte.2 := by intros; rfl)
    (meaning : ∀ b s, exec (f b) s = .next (perform penalty (form b) (runHandler h) n s) := by
      intros; rfl) :
    RunsAsTabled ⟨op, h, r, n, penalty, .byteOperand f⟩ := by
  intro s
  simp only [fetchOperand, meaning, perform, resolver]
  rfl

/-- The same for a resolver that fetches a word. -/
theorem RunsAsTabled.word {f : Addr → Instr} (form : Addr → State → Addr × State)
    (resolver : ∀ s, resolve r s = form s.fetchWord.1 s.fetchWord.2 := by intros; rfl)
    (meaning : ∀ w s, exec (f w) s = .next (perform penalty (form w) (runHandler h) n s) := by
      intros; rfl) :
    RunsAsTabled ⟨op, h, r, n, penalty, .wordOperand f⟩ := by
  intro s
  simp only [fetchOperand, meaning, perform, resolver]
  rfl

end

theorem loadRows_runAsTabled : ∀ row ∈ loadRows, RunsAsTabled row := by
  simp only [loadRows, List.forall_mem_cons]
  exact ⟨.imm ldaValue, .byte eaZpg, .byte eaZpgx, .word eaAbs, .word eaAbsx, .word eaAbsy,
    .byte eaIndx, .byte eaIndy,
    .imm ldxValue, .byte eaZpg, .byte eaZpgy, .word eaAbs, .word eaAbsy,
    .imm ldyValue, .byte eaZpg, .byte eaZpgx, .word eaAbs, .word eaAbsx, List.forall_mem_nil _⟩

theorem storeRows_runAsTabled : ∀ row ∈ storeRows, RunsAsTabled row := by
  simp only [storeRows, List.forall_mem_cons]
  exact ⟨.byte eaZpg, .byte eaZpgx, .word eaAbs, .word eaAbsx, .word eaAbsy, .byte eaIndx, .byte eaIndy,
    .byte eaZpg, .byte eaZpgy, .word eaAbs,
    .byte eaZpg, .byte eaZpgx, .word eaAbs, List.forall_mem_nil _⟩

theorem arithmeticRows_runAsTabled : ∀ row ∈ arithmeticRows, RunsAsTabled row := by
  simp only [arithmeticRows, List.forall_mem_cons]
  exact ⟨.imm adcValue, .byte eaZpg, .byte eaZpgx, .word eaAbs, .word eaAbsx, .word eaAbsy,
    .byte eaIndx, .byte eaIndy,
    .imm sbcValue, .byte eaZpg, .byte eaZpgx, .word eaAbs, .word eaAbsx, .word eaAbsy,
    .byte eaIndx, .byte eaIndy, List.forall_mem_nil _⟩

theorem incDecRows_runAsTabled : ∀ row ∈ incDecRows, RunsAsTabled row := by
  simp only [incDecRows, List.forall_mem_cons]
  exact ⟨.byte eaZpg, .byte eaZpgx, .word eaAbs, .word eaAbsx,
    .byte eaZpg, .byte eaZpgx, .word eaAbs, .word eaAbsx,
    .implied inx, .implied iny, .implied dex, .implied dey, List.forall_mem_nil _⟩

theorem rows_runAsTabled : ∀ row ∈ rows, RunsAsTabled row := by
  simp only [rows, List.forall_mem_append]
  exact ⟨⟨⟨loadRows_runAsTabled, storeRows_runAsTabled⟩, arithmeticRows_runAsTabled⟩,
    incDecRows_runAsTabled⟩

/-! ### What a step is, by its opcode byte (R103) -/

theorem step_of_row {s : State} {row : Row} (h : lookup (s.busByte s.pc) = some row) :
    step s = .next (perform row.penalty (resolve row.resolver) (runHandler row.handler)
      row.baseCycles (s.afterRead s.pc).advancePc) := by
  rw [step, fetchInstr_of_row h]
  exact rows_runAsTabled row (lookup_mem h).1 _

theorem step_of_empty {s : State} (h : lookup (s.busByte s.pc) = none) :
    step s = .fault (.unimplementedOpcode (s.busByte s.pc)
      ((s.afterRead s.pc).advancePc.recordFault (s.busByte s.pc))) := by
  rw [step, fetchInstr_of_empty h]

theorem tick_of_row {s : State} {row : Row} (h : lookup (s.busByte s.pc) = some row) :
    tick s = .next (perform row.penalty (resolve row.resolver) (runHandler row.handler)
      row.baseCycles (s.afterRead s.pc).advancePc) := by
  simp [tick, decodeTable_of_row h, Row.entry]

theorem tick_of_empty {s : State} (h : lookup (s.busByte s.pc) = none) :
    tick s = .fault (.unimplementedOpcode (s.busByte s.pc)
      ((s.afterRead s.pc).advancePc.recordFault (s.busByte s.pc))) := by
  simp [tick, decodeTable_of_empty h, DecodeEntry.empty]

/-! ### The cost of a Tick (R101, R124) -/

/-- Indexing adds 1 to the counter where the entry honours the penalty and the high byte changes, and
nothing otherwise. -/
theorem eaIndexed_cycles (base : Addr) (index : Byte) (s : State) :
    ∃ k : Nat, (eaIndexed base index s).2.cycles = s.cycles + BitVec.ofNat 64 k ∧ k ≤ 1 ∧
      (k = 1 ↔ s.cpcp = true ∧ hiByte base ≠ hiByte (base + zext16 index)) := by
  simp only [eaIndexed, pageCross_cycles, ne_eq, page_eq_iff, eq_comm (a := hiByte (base + _))]
  by_cases hc : s.cpcp = true ∧ ¬hiByte base = hiByte (base + zext16 index)
  · exact ⟨1, if_pos hc, le_rfl, iff_of_true rfl hc⟩
  · exact ⟨0, (if_neg hc).trans (BitVec.add_zero _).symm, Nat.zero_le 1, iff_of_false Nat.zero_ne_one hc⟩

/-- Resolution adds 1 to the counter where the entry honours the penalty and the resolver crosses a page,
and nothing otherwise. -/
theorem resolve_cycles (r : Resolver) (s : State) :
    ∃ k : Nat, (resolve r s).2.cycles = s.cycles + BitVec.ofNat 64 k ∧ k ≤ 1 ∧
      (k = 1 ↔ s.cpcp = true ∧ Crosses r s) := by
  cases r with
  | absx => exact eaIndexed_cycles s.fetchWord.1 s.x s.fetchWord.2
  | absy => exact eaIndexed_cycles s.fetchWord.1 s.y s.fetchWord.2
  | indy =>
    exact eaIndexed_cycles (readPointer s.fetchByte.1 s.fetchByte.2).1 s.y
      (readPointer s.fetchByte.1 s.fetchByte.2).2
  | imp | imm | zpg | zpgx | zpgy | abs | ind | indx | rel =>
    exact ⟨0, (BitVec.add_zero s.cycles).symm, Nat.zero_le 1, iff_of_false Nat.zero_ne_one And.right⟩

/-- The page test does not see cpcp. -/
theorem crosses_setCpcp (r : Resolver) (s : State) (b : Bool) :
    Crosses r (s.setCpcp b) ↔ Crosses r s := by
  cases r <;> rfl

/-- No handler touches the counter. -/
theorem runHandler_cycles (h : Handler) (ea : Addr) (s : State) :
    (runHandler h ea s).cycles = s.cycles := by
  cases h <;> rfl

theorem perform_cycles (penalty : Bool) (r : Resolver) (h : Handler) (n : Nat) (s : State) :
    ∃ k : Nat, (perform penalty (resolve r) (runHandler h) n s).cycles =
        s.cycles + BitVec.ofNat 64 (n + k) ∧ k ≤ 1 ∧
      (k = 1 ↔ penalty = true ∧ Crosses r s) := by
  obtain ⟨k, hk, le, one⟩ := resolve_cycles r (s.setCpcp penalty)
  rw [crosses_setCpcp] at one
  refine ⟨k, ?_, le, one⟩
  rw [perform, State.addCycles_cycles, runHandler_cycles, hk, State.setCpcp_cycles, Nat.add_comm n k,
    BitVec.ofNat_add, BitVec.add_assoc]

/-! ### No Tick reads the counter (R101) -/

/-- The same state with its counter `d` higher; `CycleCostOfATick` compares the Ticks of the two. -/
def State.delay (s : State) (d : Cycles) : State := s.setCycles (s.cycles + d)

theorem addCycles_delay (n : Nat) (s : State) (d : Cycles) :
    (s.delay d).addCycles n = (s.addCycles n).delay d :=
  congrArg s.setCycles (add_right_comm s.cycles d (BitVec.ofNat 64 n))

theorem pageCross_delay (base ea : Addr) (s : State) (d : Cycles) :
    pageCross base ea (s.delay d) = (pageCross base ea s).delay d := by
  rw [pageCross, addCycles_delay, pageCross, apply_ite (State.delay · d)]
  rfl

theorem eaIndexed_delay (base : Addr) (index : Byte) (s : State) (d : Cycles) :
    eaIndexed base index (s.delay d) =
      ((eaIndexed base index s).1, (eaIndexed base index s).2.delay d) :=
  congrArg (base + zext16 index, ·) (pageCross_delay base _ s d)

theorem resolve_delay (r : Resolver) (s : State) (d : Cycles) :
    resolve r (s.delay d) = ((resolve r s).1, (resolve r s).2.delay d) := by
  cases r with
  | absx => exact eaIndexed_delay s.fetchWord.1 s.x s.fetchWord.2 d
  | absy => exact eaIndexed_delay s.fetchWord.1 s.y s.fetchWord.2 d
  | indy =>
    exact eaIndexed_delay (readPointer s.fetchByte.1 s.fetchByte.2).1 s.y
      (readPointer s.fetchByte.1 s.fetchByte.2).2 d
  | imp | imm | zpg | zpgx | zpgy | abs | ind | indx | rel => rfl

theorem runHandler_delay (h : Handler) (ea : Addr) (s : State) (d : Cycles) :
    runHandler h ea (s.delay d) = (runHandler h ea s).delay d := by
  cases h <;> rfl

theorem perform_delay (penalty : Bool) (r : Resolver) (h : Handler) (n : Nat) (s : State) (d : Cycles) :
    perform penalty (resolve r) (runHandler h) n (s.delay d) =
      (perform penalty (resolve r) (runHandler h) n s).delay d := by
  have hc : (s.delay d).setCpcp penalty = (s.setCpcp penalty).delay d := rfl
  simp only [perform, hc, resolve_delay, runHandler_delay, addCycles_delay]

/-- A step that completes, started `d` cycles later, completes `d` cycles later. -/
theorem step_next_delay {s t : State} (h : step s = .next t) (d : Cycles) :
    step (s.delay d) = .next (t.delay d) := by
  obtain ⟨row, hl, -⟩ := step_next_cases h
  rw [step_of_row hl] at h
  cases h
  rw [← perform_delay]
  exact step_of_row (s := s.delay d) hl

theorem step_fault_delay {s t : State} {op : Byte} (h : step s = .fault (.unimplementedOpcode op t))
    (d : Cycles) : step (s.delay d) = .fault (.unimplementedOpcode op (t.delay d)) := by
  obtain ⟨hl, rfl, rfl⟩ := step_fault_cases h
  exact step_of_empty (s := s.delay d) hl

/-! ### The resolvers of the table, and what goes with them (30_encoding.md R83) -/

/-- An entry with a resolver is the entry of a row with that resolver. -/
theorem decodeTable_resolver_cases {op : Byte} {r : Resolver} (hr : (decodeTable op).resolver = some r) :
    ∃ row ∈ rows, decodeTable op = row.entry ∧ row.resolver = r := by
  cases hl : lookup op with
  | none => rw [decodeTable_of_empty hl] at hr; cases hr
  | some row =>
    rw [decodeTable_of_row hl] at hr
    exact ⟨row, (lookup_mem hl).1, decodeTable_of_row hl, Option.some.inj hr⟩

theorem rows_imm : ∀ row ∈ rows, row.resolver = .imm →
    row.handler.isImplied = false ∧ row.handler.writesMemory = false := by
  decide

theorem rows_zpgy : ∀ row ∈ rows, row.resolver = .zpgy → row.handler = .ldx ∨ row.handler = .stx := by
  decide

theorem rows_not_rel : ∀ row ∈ rows, row.resolver ≠ .rel := by
  decide

/-- A handler with an operand that does not write memory reads the bus once, at its address. -/
theorem runHandler_reads {h : Handler} (operand : h.isImplied = false) (reads : h.writesMemory = false)
    (ea : Addr) (s : State) : (runHandler h ea s).trace = .read ea (s.busByte ea) :: s.trace := by
  cases h with
  | lda | ldx | ldy | adc | sbc => rfl
  | sta | stx | sty | inc | dec => cases reads
  | inx | iny | dex | dey => cases operand

/-! ### Effective addresses in numbers -/

theorem zext16_toNat (b : Byte) : (zext16 b).toNat = b.toNat :=
  BitVec.toNat_setWidth_of_le (by decide)

theorem zext16_add_toNat (b index : Byte) : (zext16 (b + index)).toNat = (b.toNat + index.toNat) % 256 := by
  rw [zext16_toNat, BitVec.toNat_add]

/-- A signed offset to an address, modulo 2^16. -/
theorem add_sext16_toNat (addr : Addr) (b : Byte) :
    ((addr + sext16 b).toNat : Int) = (addr.toNat + b.toInt) % 65536 := by
  rw [BitVec.toNat_add, sext16, BitVec.signExtend, BitVec.toNat_ofInt]
  omega

/-! ### The statements -/

/-- Settles O24: in both, the opcode byte selects the row whose resolver and handler run, or none. -/
theorem stepIsTheSevenStepTick : Obligations.StepIsTheSevenStepTick := by
  intro s
  cases hl : lookup (s.busByte s.pc) with
  | none => rw [step_of_empty hl, tick_of_empty hl]
  | some row => rw [step_of_row hl, tick_of_row hl]

/-- Settles O23: a selected row completes, and an empty entry faults. -/
theorem tickHasTwoOutcomes : Obligations.TickHasTwoOutcomes := by
  intro s
  cases hl : lookup (s.busByte s.pc) with
  | none => exact .inr ⟨rfl, _, step_of_empty hl⟩
  | some row => exact .inl ⟨rfl, _, step_of_row hl⟩

/-- Settles O26: the resolver adds the penalty and step 7 the base cycles; every part of a Tick commutes
with starting the counter higher. -/
theorem cycleCostOfATick : Obligations.CycleCostOfATick := by
  intro s
  refine ⟨fun t ht => ?_, fun op t ht => ?_, fun t d ht => step_next_delay ht d,
    fun op t d ht => step_fault_delay ht d⟩
  · obtain ⟨row, hl, -⟩ := step_next_cases ht
    rw [step_of_row hl] at ht
    cases ht
    rw [decodeTable_of_row hl]
    exact ⟨row.resolver, rfl, perform_cycles row.penalty row.resolver row.handler row.baseCycles
      (s.afterRead s.pc).advancePc⟩
  · obtain ⟨-, -, rfl⟩ := step_fault_cases ht
    rfl

/-- Settles O34: an entry with IMM has a handler that reads at the address, which IMM took from PC. -/
theorem immediateResolver : Obligations.ImmediateResolver := by
  intro s
  refine ⟨rfl, fun hpc => ⟨hpc, ?_⟩, fun op h hr hh => ?_⟩
  · show s.pc + 1 = 0x0000
    rw [hpc]
    rfl
  · obtain ⟨row, mem, he, imm⟩ := decodeTable_resolver_cases hr
    obtain ⟨operand, reads⟩ := rows_imm row mem imm
    rw [he] at hh
    cases hh
    exact runHandler_reads operand reads _ _

/-- Settles O35: the three forms share the fetch of one byte and differ in the index added. -/
theorem zeroPageResolvers : Obligations.ZeroPageResolvers := by
  intro s
  refine ⟨⟨zext16_toNat _, rfl⟩, ⟨zext16_add_toNat _ s.x, rfl⟩, ⟨zext16_add_toNat _ s.y, rfl⟩,
    fun op hr => ?_⟩
  obtain ⟨row, mem, he, zpgy⟩ := decodeTable_resolver_cases hr
  rw [he]
  exact (rows_zpgy row mem zpgy).imp (congrArg some) (congrArg some)

/-- Settles O40: the sum is taken before PC advances, and no row has REL. -/
theorem relativeResolver : Obligations.RelativeResolver := by
  intro s
  refine ⟨add_sext16_toNat s.pc (s.busByte s.pc), rfl, fun op hr => ?_⟩
  obtain ⟨row, mem, -, rel⟩ := decodeTable_resolver_cases hr
  exact rows_not_rel row mem rel

end Sys2Proof.Machine
end

