-- ==== Sys2Proof/Proofs/LoadStoreFamily.lean ====
section
/-!
The statements of 41_load_store.md. Each operand form is described once, under either penalty policy, and
each handler once, for all three registers; a statement is then one line per instruction, which names the
instruction's form.
-/

namespace Sys2Proof.Claims

open Sys2Proof.Machine

/-! ### Operand forms (40_engine_addressing.md R113–R124) -/

/-- The cycle that indexing costs (R124); an entry that does not honour the penalty pays none. -/
def pagePenalty : Bool → Addr → Addr → Nat
  | true, base, ea => crossing base ea
  | false, _, _ => 0

theorem eaIndexed_pagePenalty (base : Addr) (index : Byte) (s : State) :
    (eaIndexed base index s).2.cycles =
      s.cycles + BitVec.ofNat 64 (pagePenalty s.cpcp base (base + zext16 index)) := by
  cases hp : s.cpcp with
  | false =>
    rw [eaIndexed, pageCross_not_honoured _ _ hp]
    exact (BitVec.add_zero _).symm
  | true =>
    simp only [eaIndexed, pageCross_cycles, hp, true_and, ne_eq, ite_not, page_eq_iff,
      eq_comm (a := hiByte (base + _)), pagePenalty, crossing]
    split
    · exact (BitVec.add_zero _).symm
    · rfl

/-- Under an entry's penalty policy the operand form, run in `s`, answers `ea` and pays `k` cycles. It
leaves the history of `r`, and so the bus's answer at `ea` in `r`; nothing else changes. -/
structure ResolvesTo (form : State → Addr × State) (penalty : Bool) (ea : Addr) (r : State) (k : Nat)
    (s : State) : Prop where
  address : (form (s.setCpcp penalty)).1 = ea
  readsOnly : ReadsOnly (s.setCpcp penalty) (form (s.setCpcp penalty)).2
  trace : (form (s.setCpcp penalty)).2.trace = r.trace
  busByte : (form (s.setCpcp penalty)).2.busByte ea = r.busByte ea
  cycles : (form (s.setCpcp penalty)).2.cycles = s.cycles + BitVec.ofNat 64 k

section
variable (zp : Byte) (base : Addr) (s : State) {penalty : Bool}

theorem ResolvesTo.zpg : ResolvesTo (eaZpg zp) penalty (zext16 zp) s 0 s :=
  ⟨rfl, .refl _, rfl, rfl, (BitVec.add_zero _).symm⟩

theorem ResolvesTo.zpgx : ResolvesTo (eaZpgx zp) penalty (zext16 (zp + s.x)) s 0 s :=
  ⟨rfl, .refl _, rfl, rfl, (BitVec.add_zero _).symm⟩

theorem ResolvesTo.zpgy : ResolvesTo (eaZpgy zp) penalty (zext16 (zp + s.y)) s 0 s :=
  ⟨rfl, .refl _, rfl, rfl, (BitVec.add_zero _).symm⟩

theorem ResolvesTo.abs : ResolvesTo (eaAbs base) penalty base s 0 s :=
  ⟨rfl, .refl _, rfl, rfl, (BitVec.add_zero _).symm⟩

theorem ResolvesTo.absx :
    ResolvesTo (eaAbsx base) penalty (base + zext16 s.x) s
      (pagePenalty penalty base (base + zext16 s.x)) s :=
  ⟨rfl, eaAbsx_readsOnly base _, pageCross_trace .., pageCross_busByte .., eaIndexed_pagePenalty base s.x _⟩

theorem ResolvesTo.absy :
    ResolvesTo (eaAbsy base) penalty (base + zext16 s.y) s
      (pagePenalty penalty base (base + zext16 s.y)) s :=
  ⟨rfl, eaAbsy_readsOnly base _, pageCross_trace .., pageCross_busByte .., eaIndexed_pagePenalty base s.y _⟩

theorem ResolvesTo.indx :
    ResolvesTo (eaIndx zp) penalty (readPointer (zp + s.x) s).1 (readPointer (zp + s.x) s).2 0 s :=
  ⟨rfl, eaIndx_readsOnly zp _, rfl, rfl, (BitVec.add_zero _).symm⟩

/-- The page test is against the pointer word before Y is added (R122). -/
theorem ResolvesTo.indy :
    ResolvesTo (eaIndy zp) penalty ((readPointer zp s).1 + zext16 s.y) (readPointer zp s).2
      (pagePenalty penalty (readPointer zp s).1 ((readPointer zp s).1 + zext16 s.y)) s :=
  ⟨rfl, eaIndy_readsOnly zp _, pageCross_trace .., pageCross_busByte ..,
    eaIndexed_pagePenalty (readPointer zp s).1 s.y ((readPointer zp s).2.setCpcp penalty)⟩

end

/-- What the form has paid, and step 7's base cycles after it. -/
theorem addCycles_cycles_of_paid {s u : State} {k : Nat} (paid : u.cycles = s.cycles + BitVec.ofNat 64 k)
    (n : Nat) : (u.addCycles n).cycles = s.cycles + BitVec.ofNat 64 (n + k) := by
  rw [State.addCycles_cycles, paid, Nat.add_comm n k, BitVec.ofNat_add, BitVec.add_assoc]

@[simp] theorem Reg.get_addCycles (q : Reg) (s : State) (n : Nat) : q.get (s.addCycles n) = q.get s := by
  cases q <;> rfl

@[simp] theorem Reg.get_busWrite (q : Reg) (s : State) (ea : Addr) (v : Byte) :
    q.get (s.busWrite ea v) = q.get s := by
  cases q <;> rfl

theorem Reg.get_of_resolved {s u : State} {penalty : Bool} (h : ReadsOnly (s.setCpcp penalty) u) (q : Reg) :
    q.get u = q.get s := by
  cases q with
  | a => exact h.a
  | x => exact h.x
  | y => exact h.y

/-! ### The loads (41_load_store.md R130–R132) -/

/-- The load of a byte, by its register. -/
def Reg.loadValue : Reg → Byte → State → State
  | .a => ldaValue
  | .x => ldxValue
  | .y => ldyValue

/-- The handler that loads the register. -/
def Reg.loader : Reg → Handler
  | .a => .lda
  | .x => .ldx
  | .y => .ldy

theorem runHandler_loader (dest : Reg) (ea : Addr) (s : State) :
    runHandler dest.loader ea s = dest.loadValue (s.busByte ea) (s.afterRead ea) := by
  cases dest <;> rfl

theorem Reg.get_loadValue (dest q : Reg) (v : Byte) (s : State) :
    q.get (dest.loadValue v s) = if q = dest then v else q.get s := by
  cases dest <;> cases q <;> rfl

/-- A load, with the base cycles, after a resolution that has led from `s` to `u`. -/
theorem Reg.loadValue_loads (dest : Reg) (v : Byte) (n : Nat) {s u : State} {k : Nat}
    (h : ReadsOnly (s.setCpcp true) u) (paid : u.cycles = s.cycles + BitVec.ofNat 64 k) :
    Loads dest v u.trace (n + k) s ((dest.loadValue v u).addCycles n) := by
  have others : ∀ q : Reg, q ≠ dest → q.get ((dest.loadValue v u).addCycles n) = q.get s := by
    intro q hq
    rw [get_addCycles, get_loadValue, if_neg hq, get_of_resolved h]
  have flags : ZNof v s.p (setZN v u.p) := by rw [h.p]; exact setZN_ZNof v s.p
  have frame : Untouched s u := (setCpcp_untouched s true).trans (.of_readsOnly h)
  have memory : SameMemory s u := fun addr => by rw [h.mem, State.setCpcp_mem]
  cases dest with
  | a | x | y =>
    exact ⟨rfl, others, flags, frame, memory, rfl, addCycles_cycles_of_paid paid n, h.cpcp⟩

section
variable {dest : Reg} {i : Instr} {s : State} {n : Nat}

/-- A load whose meaning is steps 4 to 7 of R100 with a form that answers `ea`. -/
theorem LoadForm.of_resolvesTo {form : State → Addr × State} {ea : Addr} {r : State} {k : Nat}
    (h : ResolvesTo form true ea r k s)
    (meaning : exec i s = .next (perform true form (runHandler dest.loader) n s) := by rfl) :
    LoadForm dest i ea r (n + k) s := by
  refine ⟨_, meaning, ?_⟩
  rw [perform, runHandler_loader, h.address, ← h.trace, ← h.busByte]
  exact dest.loadValue_loads _ n (h.readsOnly.trans (afterRead_readsOnly _ ea)) h.cycles

/-- An immediate load makes no access of its own (log entry 7). -/
theorem exec_immediate_loads {imm : Byte}
    (meaning : exec i s = .next (performDirect true (dest.loadValue imm) n s) := by rfl) :
    ∃ t, exec i s = .next t ∧ Loads dest imm s.trace n s t :=
  ⟨_, meaning, dest.loadValue_loads imm n (.refl _) (BitVec.add_zero _).symm⟩

end

/-! ### The stores (41_load_store.md R133–R135) -/

/-- The handler that stores the register. -/
def Reg.storer : Reg → Handler
  | .a => .sta
  | .x => .stx
  | .y => .sty

theorem runHandler_storer (src : Reg) (ea : Addr) (s : State) :
    runHandler src.storer ea s = s.busWrite ea (src.get s) := by
  cases src <;> rfl

theorem busWrite_storedAt (s : State) (ea : Addr) (v : Byte) : StoredAt ea v s (s.busWrite ea v) := by
  refine ⟨fun flat => ?_, fun openBus => ?_, fun addr ne => ?_⟩
  · rw [State.busWrite_mem, State.memAfterWrite_flat flat, Memory.read_write_same]
  · exact State.memAfterWrite_open openBus ea v
  · exact State.read_memAfterWrite_of_ne s v ne

/-- A store, with the base cycles, after a resolution that has led from `s` to `u` and paid nothing. -/
theorem busWrite_stores (ea : Addr) (v : Byte) (n : Nat) {s u : State}
    (h : ReadsOnly (s.setCpcp false) u) (paid : u.cycles = s.cycles + BitVec.ofNat 64 0) :
    Stores ea v u.trace n s ((u.busWrite ea v).addCycles n) := by
  have stored : StoredAt ea v s (u.busWrite ea v) := by
    have := busWrite_storedAt u ea v
    rwa [StoredAt, h.busKind, h.mem] at this
  have frame : Untouched s u := (setCpcp_untouched s false).trans (.of_readsOnly h)
  exact ⟨stored, fun q => by simp [Reg.get_of_resolved h], h.p, frame, rfl,
    addCycles_cycles_of_paid (u := u.busWrite ea v) paid n, h.cpcp⟩

/-- A store whose meaning is steps 4 to 7 of R100 with a form that answers `ea` and pays no penalty. -/
theorem StoreForm.of_resolvesTo {src : Reg} {i : Instr} {s : State} {n : Nat}
    {form : State → Addr × State} {ea : Addr} {r : State} (h : ResolvesTo form false ea r 0 s)
    (meaning : exec i s = .next (perform false form (runHandler src.storer) n s) := by rfl) :
    StoreForm src i ea r n s := by
  refine ⟨_, meaning, ?_⟩
  rw [perform, runHandler_storer, h.address, Reg.get_of_resolved h.readsOnly, ← h.trace]
  exact busWrite_stores ea _ n h.readsOnly h.cycles

/-! ### The statements -/

/-- Settles O43: LDA's eight forms, by their resolution; absolute,X, absolute,Y and (indirect),Y pay for a page
crossing. -/
theorem ldaLoadsTheAccumulator : Obligations.LdaLoadsTheAccumulator := fun s _ zp base =>
  ⟨exec_immediate_loads, .of_resolvesTo (.zpg zp s), .of_resolvesTo (.zpgx zp s),
    .of_resolvesTo (.abs base s), .of_resolvesTo (.absx base s), .of_resolvesTo (.absy base s),
    .of_resolvesTo (.indx zp s), .of_resolvesTo (.indy zp s)⟩

/-- Settles O44: LDX's five forms, by their resolution; absolute,Y pays for a page crossing. -/
theorem ldxLoadsX : Obligations.LdxLoadsX := fun s _ zp base =>
  ⟨exec_immediate_loads, .of_resolvesTo (.zpg zp s), .of_resolvesTo (.zpgy zp s),
    .of_resolvesTo (.abs base s), .of_resolvesTo (.absy base s)⟩

/-- Settles O45: LDY's five forms, by their resolution; absolute,X pays for a page crossing. -/
theorem ldyLoadsY : Obligations.LdyLoadsY := fun s _ zp base =>
  ⟨exec_immediate_loads, .of_resolvesTo (.zpg zp s), .of_resolvesTo (.zpgx zp s),
    .of_resolvesTo (.abs base s), .of_resolvesTo (.absx base s)⟩

/-- Settles O46: STA's seven forms, by their resolution, which pays nothing. -/
theorem staStoresTheAccumulator : Obligations.StaStoresTheAccumulator := fun s zp base =>
  ⟨.of_resolvesTo (.zpg zp s), .of_resolvesTo (.zpgx zp s), .of_resolvesTo (.abs base s),
    .of_resolvesTo (.absx base s), .of_resolvesTo (.absy base s),
    .of_resolvesTo (.indx zp s), .of_resolvesTo (.indy zp s)⟩

/-- Settles O47: STX's three forms, by their resolution. -/
theorem stxStoresX : Obligations.StxStoresX := fun s zp base =>
  ⟨.of_resolvesTo (.zpg zp s), .of_resolvesTo (.zpgy zp s), .of_resolvesTo (.abs base s)⟩

/-- Settles O48: STY's three forms, by their resolution. -/
theorem styStoresY : Obligations.StyStoresY := fun s zp base =>
  ⟨.of_resolvesTo (.zpg zp s), .of_resolvesTo (.zpgx zp s), .of_resolvesTo (.abs base s)⟩

end Sys2Proof.Claims
end

