-- ==== Sys2Proof/Proofs/ArithmeticFamily.lean ====
section
/-!
The statements of 42_arithmetic.md. ADC and SBC write a result into A and C, Z, V and N into P, and differ
in how they compute them: `setResult` is what they share, and what the frame and the indifference to D are shown of.
-/

namespace Sys2Proof.Claims

open Sys2Proof.Machine

/-! ### The four flags (42_arithmetic.md R180, R181) -/

theorem flagC_getLsbD (i : Nat) : flagC.getLsbD i = decide (i = 0) := by
  rw [show flagC = BitVec.twoPow 8 0 from rfl, BitVec.getLsbD_twoPow]
  simp [eq_comm]

theorem flagV_getLsbD (i : Nat) : flagV.getLsbD i = decide (i = 6) := by
  rw [show flagV = BitVec.twoPow 8 6 from rfl, BitVec.getLsbD_twoPow]
  simp [eq_comm]

/-- P with C, Z, V and N written, in the order of `adcFlags` and `sbcFlags`. -/
def putCZVN (c z v n : Bool) (p : Byte) : Byte :=
  putFlag flagN n (putFlag flagV v (putFlag flagZ z (putFlag flagC c p)))

theorem putCZVN_getLsbD (c z v n : Bool) (p : Byte) (i : Nat) :
    (putCZVN c z v n p).getLsbD i =
      if i = 7 then n else if i = 6 then v else if i = 1 then z else if i = 0 then c else p.getLsbD i := by
  simp only [putCZVN, putFlag_getLsbD, flagC_getLsbD, flagZ_getLsbD, flagV_getLsbD, flagN_getLsbD,
    decide_eq_true_eq]

theorem putCZVN_CZVNof (c z v n : Bool) (p : Byte) : CZVNof c z v n p (putCZVN c z v n p) := by
  refine ⟨?_, ?_, ?_, ?_, fun i h0 h1 h6 h7 => ?_⟩ <;> rw [putCZVN_getLsbD]
  · rfl
  · rfl
  · rfl
  · rfl
  · rw [if_neg h7, if_neg h6, if_neg h1, if_neg h0]

/-! ### The result in A and its flags in P -/

/-- A takes `r`, and Z and N follow it; C is `c` and V is `o`. -/
def setResult (r : Byte) (c o : Bool) (s : State) : State :=
  (s.setA r).setP (putCZVN c (r == 0x00) o (r.getLsbD 7) s.p)

theorem adcValue_eq_setResult (v : Byte) (s : State) :
    adcValue v s =
      setResult (adcResult s.a v (s.p.getLsbD 0)) (decide (255 < adcSum s.a v (s.p.getLsbD 0)))
        (!(s.a ^^^ v).getLsbD 7 && (s.a ^^^ adcResult s.a v (s.p.getLsbD 0)).getLsbD 7) s := by
  rw [← isSet_flagC]
  rfl

theorem sbcValue_eq_setResult (v : Byte) (s : State) :
    sbcValue v s =
      setResult (sbcResult s.a v (s.p.getLsbD 0)) (decide (0 ≤ sbcDiff s.a v (s.p.getLsbD 0)))
        ((s.a ^^^ v).getLsbD 7 && (s.a ^^^ sbcResult s.a v (s.p.getLsbD 0)).getLsbD 7) s := by
  rw [← isSet_flagC]
  rfl

/-- What `Adds` and `Subtracts` say alike: all but A and the flags. -/
def OnlyResult (hist : List BusAccess) (n : Nat) (s t : State) : Prop :=
  t.x = s.x ∧ t.y = s.y ∧ Untouched s t ∧ SameMemory s t ∧ t.trace = hist ∧
    t.cycles = s.cycles + BitVec.ofNat 64 n ∧ t.cpcp = true

section
variable {s u : State} {k : Nat}

/-- The handler, with the base cycles, after a resolution that has led from `s` to `u`. -/
theorem setResult_onlyResult {r : Byte} {c o : Bool} (n : Nat) (h : ReadsOnly (s.setCpcp true) u)
    (paid : u.cycles = s.cycles + BitVec.ofNat 64 k) :
    OnlyResult u.trace (n + k) s ((setResult r c o u).addCycles n) :=
  have frame : Untouched s u := (setCpcp_untouched s true).trans (.of_readsOnly h)
  have memory : SameMemory s u := fun addr => congrArg (Memory.read · addr.toNat) h.mem
  ⟨h.x, h.y, frame, memory, rfl, addCycles_cycles_of_paid paid n, h.cpcp⟩

theorem setResult_CZVNof {r : Byte} {z : Bool} {c o : Bool} (zero : (r == 0x00) = z) (hp : u.p = s.p) :
    CZVNof c z o (r.getLsbD 7) s.p (setResult r c o u).p := by
  rw [← zero, ← hp]
  exact putCZVN_CZVNof ..

/-! ### ADC (42_arithmetic.md R180) -/

theorem adcResult_toNat (a v : Byte) (c : Bool) : (adcResult a v c).toNat = adcSum a v c % 256 :=
  BitVec.toNat_ofNat ..

theorem adcResult_beq_zero (a v : Byte) (c : Bool) :
    (adcResult a v c == 0x00) = decide (adcSum a v c % 256 = 0) := by
  rw [beq_eq_decide, decide_eq_decide, ← BitVec.toNat_inj, adcResult_toNat]
  rfl

theorem adcValue_adds (v : Byte) (n : Nat) (h : ReadsOnly (s.setCpcp true) u)
    (paid : u.cycles = s.cycles + BitVec.ofNat 64 k) :
    Adds v u.trace (n + k) s ((adcValue v u).addCycles n) := by
  have ha : u.a = s.a := h.a
  have hp : u.p = s.p := h.p
  rw [adcValue_eq_setResult, ha, hp]
  exact ⟨adcResult_toNat .., setResult_CZVNof (adcResult_beq_zero ..) hp, setResult_onlyResult n h paid⟩

/-! ### SBC (42_arithmetic.md R181) -/

theorem sbcDiff_eq (a v : Byte) (c : Bool) :
    sbcDiff a v c = (a.toNat : Int) - v.toNat - (if c = true then 0 else 1) := by
  cases c <;> rfl

theorem sbcResult_toNat (a v : Byte) (c : Bool) : ((sbcResult a v c).toNat : Int) = sbcDiff a v c % 256 := by
  rw [sbcResult, BitVec.toNat_ofInt]
  omega

theorem sbcResult_beq_zero (a v : Byte) (c : Bool) :
    (sbcResult a v c == 0x00) = decide (sbcDiff a v c % 256 = 0) := by
  rw [beq_eq_decide, decide_eq_decide, ← BitVec.toNat_inj, ← Int.natCast_inj, sbcResult_toNat]
  rfl

theorem sbcValue_subtracts (v : Byte) (n : Nat) (h : ReadsOnly (s.setCpcp true) u)
    (paid : u.cycles = s.cycles + BitVec.ofNat 64 k) :
    Subtracts v u.trace (n + k) s ((sbcValue v u).addCycles n) := by
  have ha : u.a = s.a := h.a
  have hp : u.p = s.p := h.p
  rw [sbcValue_eq_setResult, ha, hp, Subtracts, ← sbcDiff_eq]
  exact ⟨sbcResult_toNat .., setResult_CZVNof (sbcResult_beq_zero ..) hp, setResult_onlyResult n h paid⟩

end

/-! ### Every form -/

section
variable {i : Instr} {s : State} {n : Nat} {form : State → Addr × State} {ea : Addr} {r : State} {k : Nat}

/-- Steps 4 to 7 of R100 with a form that answers `ea` and a handler that runs `value` on the byte read there:
the result that `value` has for every byte and after every resolution, `spec`, it has for this read. -/
theorem perform_of_resolvesTo {value : Byte → State → State}
    {Result : Byte → List BusAccess → Nat → State → State → Prop} (h : ResolvesTo form true ea r k s)
    (spec : ∀ v {u}, ReadsOnly (s.setCpcp true) u → u.cycles = s.cycles + BitVec.ofNat 64 k →
      Result v u.trace (n + k) s ((value v u).addCycles n)) :
    Result (r.busByte ea) (.read ea (r.busByte ea) :: r.trace) (n + k) s
      (perform true form (fun ea s => value (s.busByte ea) (s.afterRead ea)) n s) := by
  rw [perform, h.address, ← h.trace, ← h.busByte]
  exact spec _ (h.readsOnly.trans (afterRead_readsOnly _ ea)) h.cycles

theorem AdcForm.of_resolvesTo (h : ResolvesTo form true ea r k s)
    (meaning : exec i s = .next (perform true form adc n s) := by rfl) : AdcForm i ea r (n + k) s :=
  ⟨_, meaning, perform_of_resolvesTo h (adcValue_adds · n)⟩

theorem SbcForm.of_resolvesTo (h : ResolvesTo form true ea r k s)
    (meaning : exec i s = .next (perform true form sbc n s) := by rfl) : SbcForm i ea r (n + k) s :=
  ⟨_, meaning, perform_of_resolvesTo h (sbcValue_subtracts · n)⟩

end

/-! ### D is not read (42_arithmetic.md R183) -/

theorem flagD_getLsbD (i : Nat) : flagD.getLsbD i = decide (i = 3) := by
  rw [show flagD = BitVec.twoPow 8 3 from rfl, BitVec.getLsbD_twoPow]
  simp [eq_comm]

/-- The state with D written. -/
def withD (d : Bool) (s : State) : State := s.setP (putFlag flagD d s.p)

theorem putFlag_flagD_getLsbD (d : Bool) (p : Byte) (i : Nat) :
    (putFlag flagD d p).getLsbD i = if i = 3 then d else p.getLsbD i := by
  simp only [putFlag_getLsbD, flagD_getLsbD, decide_eq_true_eq]

theorem putFlag_flagD_self (p : Byte) : putFlag flagD (p.getLsbD 3) p = p := by
  refine BitVec.eq_of_getLsbD_eq fun i _ => ?_
  rw [putFlag_flagD_getLsbD, ite_eq_right_iff]
  rintro rfl
  rfl

theorem putFlag_flagD_not (p : Byte) : putFlag flagD (!p.getLsbD 3) p = p ^^^ flagD := by
  refine BitVec.eq_of_getLsbD_eq fun i _ => ?_
  rw [putFlag_flagD_getLsbD, BitVec.getLsbD_xor, flagD_getLsbD]
  by_cases hi : i = 3 <;> simp [hi]

theorem putCZVN_putFlag_flagD (c z v n d : Bool) (p : Byte) :
    putCZVN c z v n (putFlag flagD d p) = putFlag flagD d (putCZVN c z v n p) := by
  refine BitVec.eq_of_getLsbD_eq fun i _ => ?_
  simp only [putCZVN_getLsbD, putFlag_flagD_getLsbD]
  by_cases hi : i = 3 <;> simp [hi]

theorem withD_self (s : State) : withD (s.p.getLsbD 3) s = s := congrArg s.setP (putFlag_flagD_self s.p)

theorem withD_not (s : State) : withD (!s.p.getLsbD 3) s = flipD s := congrArg s.setP (putFlag_flagD_not s.p)

/-- Writing D before `f` is writing it after `f`. -/
def IgnoresD (f : State → State) : Prop := ∀ d s, f (withD d s) = withD d (f s)

/-- Writing the value that D has changes nothing, and so it changes nothing after `f`: D has that value there. -/
theorem IgnoresD.keeps {f : State → State} (h : IgnoresD f) (s : State) :
    (f s).p.getLsbD 3 = s.p.getLsbD 3 := by
  have same : f s = withD (s.p.getLsbD 3) (f s) := by rw [← h, withD_self]
  rw [same]
  exact putFlag_flagD_getLsbD ..

theorem IgnoresD.flipD {f : State → State} (h : IgnoresD f) (s : State) : f (flipD s) = flipD (f s) := by
  rw [← withD_not, ← withD_not, h.keeps, h]

theorem setResult_ignoresD (r : Byte) (c o : Bool) : IgnoresD (setResult r c o) := fun d s =>
  congrArg (s.setA r).setP (putCZVN_putFlag_flagD c _ o _ d s.p)

theorem withD_carry (d : Bool) (s : State) : (withD d s).p.getLsbD 0 = s.p.getLsbD 0 :=
  putFlag_flagD_getLsbD ..

theorem adcValue_ignoresD (v : Byte) : IgnoresD (adcValue v) := by
  intro d s
  rw [adcValue_eq_setResult, adcValue_eq_setResult, withD_carry]
  exact setResult_ignoresD _ _ _ d s

theorem sbcValue_ignoresD (v : Byte) : IgnoresD (sbcValue v) := by
  intro d s
  rw [sbcValue_eq_setResult, sbcValue_eq_setResult, withD_carry]
  exact setResult_ignoresD _ _ _ d s

theorem pageCross_withD (base ea : Addr) (d : Bool) (s : State) :
    pageCross base ea (withD d s) = withD d (pageCross base ea s) := by
  rw [pageCross, pageCross, apply_ite (withD d)]
  rfl

theorem eaIndexed_withD (base : Addr) (index : Byte) (d : Bool) (s : State) :
    eaIndexed base index (withD d s) = ((eaIndexed base index s).1, withD d (eaIndexed base index s).2) :=
  congrArg (base + zext16 index, ·) (pageCross_withD base _ d s)

/-- Writing D before an operand form is writing it after the form, which answers the same address. -/
def FormIgnoresD (form : State → Addr × State) : Prop :=
  ∀ d s, form (withD d s) = ((form s).1, withD d (form s).2)

theorem eaAbsx_ignoresD (base : Addr) : FormIgnoresD (eaAbsx base) := fun d s =>
  eaIndexed_withD base s.x d s

theorem eaAbsy_ignoresD (base : Addr) : FormIgnoresD (eaAbsy base) := fun d s =>
  eaIndexed_withD base s.y d s

theorem eaIndy_ignoresD (zp : Byte) : FormIgnoresD (eaIndy zp) := fun d s =>
  eaIndexed_withD (readPointer zp s).1 s.y d (readPointer zp s).2

theorem perform_ignoresD {form : State → Addr × State} {handler : Addr → State → State}
    (hf : FormIgnoresD form) (hh : ∀ ea, IgnoresD (handler ea)) (penalty : Bool) (n : Nat) :
    IgnoresD (perform penalty form handler n) := by
  intro d s
  have hc : (withD d s).setCpcp penalty = withD d (s.setCpcp penalty) := rfl
  rw [perform, hc, hf, hh]
  rfl

theorem performDirect_ignoresD {effect : State → State} (he : IgnoresD effect) (penalty : Bool) (n : Nat) :
    IgnoresD (performDirect penalty effect n) := fun d s =>
  congrArg (State.addCycles · n) (he d (s.setCpcp penalty))

theorem adc_ignoresD (ea : Addr) : IgnoresD (adc ea) := fun d s =>
  adcValue_ignoresD (s.busByte ea) d (s.afterRead ea)

theorem sbc_ignoresD (ea : Addr) : IgnoresD (sbc ea) := fun d s =>
  sbcValue_ignoresD (s.busByte ea) d (s.afterRead ea)

/-- The cases go by operand form; an instruction of another handler has another row. -/
theorem exec_ignoresD {i : Instr} {row : Row} (hl : lookup ((encode i).headD 0) = some row)
    (hh : row.handler = .adc ∨ row.handler = .sbc) : ∃ f, IgnoresD f ∧ ∀ s, exec i s = .next (f s) := by
  cases i with
  | adcImm imm => exact ⟨_, performDirect_ignoresD (adcValue_ignoresD imm) _ _, fun _ => rfl⟩
  | adcZpg | adcZpgx | adcAbs | adcIndx =>
    exact ⟨_, perform_ignoresD (fun _ _ => rfl) adc_ignoresD _ _, fun _ => rfl⟩
  | adcAbsx base => exact ⟨_, perform_ignoresD (eaAbsx_ignoresD base) adc_ignoresD _ _, fun _ => rfl⟩
  | adcAbsy base => exact ⟨_, perform_ignoresD (eaAbsy_ignoresD base) adc_ignoresD _ _, fun _ => rfl⟩
  | adcIndy zp => exact ⟨_, perform_ignoresD (eaIndy_ignoresD zp) adc_ignoresD _ _, fun _ => rfl⟩
  | sbcImm imm => exact ⟨_, performDirect_ignoresD (sbcValue_ignoresD imm) _ _, fun _ => rfl⟩
  | sbcZpg | sbcZpgx | sbcAbs | sbcIndx =>
    exact ⟨_, perform_ignoresD (fun _ _ => rfl) sbc_ignoresD _ _, fun _ => rfl⟩
  | sbcAbsx base => exact ⟨_, perform_ignoresD (eaAbsx_ignoresD base) sbc_ignoresD _ _, fun _ => rfl⟩
  | sbcAbsy base => exact ⟨_, perform_ignoresD (eaAbsy_ignoresD base) sbc_ignoresD _ _, fun _ => rfl⟩
  | sbcIndy zp => exact ⟨_, perform_ignoresD (eaIndy_ignoresD zp) sbc_ignoresD _ _, fun _ => rfl⟩
  | _ =>
    cases hl
    rcases hh with hh | hh <;> cases hh

/-! ### The statements -/

/-- Settles O51: ADC's eight forms, by their resolution; absolute,X, absolute,Y and (indirect),Y pay for a page
crossing. -/
theorem adcAddsWithCarry : Obligations.AdcAddsWithCarry := fun s imm zp base =>
  ⟨⟨_, rfl, adcValue_adds imm 2 (.refl _) (BitVec.add_zero _).symm⟩,
    .of_resolvesTo (.zpg zp s), .of_resolvesTo (.zpgx zp s),
    .of_resolvesTo (.abs base s), .of_resolvesTo (.absx base s), .of_resolvesTo (.absy base s),
    .of_resolvesTo (.indx zp s), .of_resolvesTo (.indy zp s)⟩

/-- Settles O52: SBC's eight forms, by their resolution, as for ADC. -/
theorem sbcSubtractsWithBorrow : Obligations.SbcSubtractsWithBorrow := fun s imm zp base =>
  ⟨⟨_, rfl, sbcValue_subtracts imm 2 (.refl _) (BitVec.add_zero _).symm⟩,
    .of_resolvesTo (.zpg zp s), .of_resolvesTo (.zpgx zp s),
    .of_resolvesTo (.abs base s), .of_resolvesTo (.absx base s), .of_resolvesTo (.absy base s),
    .of_resolvesTo (.indx zp s), .of_resolvesTo (.indy zp s)⟩

/-- Settles O55: the form and the handler commute with writing D, so the instruction does; `flipD` writes D. -/
theorem decimalFlagIsIgnored : Obligations.DecimalFlagIsIgnored := by
  intro i s t row hl hh ht
  obtain ⟨f, hf, meaning⟩ := exec_ignoresD hl hh
  rw [meaning] at ht
  cases ht
  exact ⟨by rw [meaning, hf.flipD], hf.keeps s⟩

end Sys2Proof.Claims
end

