-- ==== Sys2Proof/Proofs/IncDecFamily.lean ====
section
/-!
The statements of 43_inc_dec.md. A read-modify-write is a store of its result into the machine whose Z and N
already follow it, and INX, INY, DEX and DEY load a value into their register: the specs of the stores and of
the loads give what each of them does.
-/

namespace Sys2Proof.Machine

theorem ReadsOnly.setP {s u : State} (h : ReadsOnly s u) (p : Byte) : ReadsOnly (s.setP p) (u.setP p) :=
  ⟨h.a, h.x, h.y, h.sp, rfl, h.pc, h.cpcp, h.busKind, h.mem, h.faults⟩

end Sys2Proof.Machine

namespace Sys2Proof.Claims

open Sys2Proof.Machine

/-! ### INC and DEC (43_inc_dec.md R210, R211) -/

@[simp] theorem Reg.get_setP (q : Reg) (s : State) (p : Byte) : q.get (s.setP p) = q.get s := by
  cases q <;> rfl

/-- The write of a read-modify-write, with the base cycles, after a resolution that has led from `s` to `u`
and paid nothing. -/
theorem modifyWith_stores (ea : Addr) (r : Byte) (n : Nat) {s u : State}
    (h : ReadsOnly (s.setCpcp false) u) (paid : u.cycles = s.cycles + BitVec.ofNat 64 0) :
    Stores ea r u.trace n (s.setP (setZN r s.p)) ((modifyWith ea r u).addCycles n) := by
  have hp : u.p = s.p := h.p
  rw [modifyWith, hp]
  exact busWrite_stores ea r n (h.setP _) paid

/-- A read-modify-write whose meaning is steps 4 to 7 of R100 with a form that answers `ea`, makes no access
and pays no penalty. -/
theorem ModifyForm.of_resolvesTo {f : Byte → Byte} {i : Instr} {s : State} {n : Nat}
    {form : State → Addr × State} {ea : Addr} (h : ResolvesTo form false ea s 0 s)
    (meaning : exec i s = .next (perform false form
      (fun ea u => modifyWith ea (f (u.busByte ea)) (u.afterRead ea)) n s) := by rfl) :
    ModifyForm f i ea n s := by
  refine ⟨_, meaning, ?_⟩
  rw [perform, h.address, h.busByte]
  obtain ⟨stored, registers, flags, frame, trace, cycles, cpcp⟩ :=
    modifyWith_stores ea (f (s.busByte ea)) n (h.readsOnly.trans (afterRead_readsOnly _ ea)) h.cycles
  refine ⟨stored, fun q => (registers q).trans (q.get_setP s _), ?_, frame, ?_, cycles, cpcp⟩
  · rw [flags]
    exact setZN_ZNof _ s.p
  · rw [trace, State.afterRead_trace, h.busByte, h.trace]

/-! ### INX, INY, DEX and DEY (43_inc_dec.md R212–R215): loads of a value computed from the register -/

theorem exec_inx (s : State) :
    exec .inx s = .next (performDirect true (Reg.loadValue .x (s.x + 1)) 2 s) := rfl

theorem exec_iny (s : State) :
    exec .iny s = .next (performDirect true (Reg.loadValue .y (s.y + 1)) 2 s) := rfl

theorem exec_dex (s : State) :
    exec .dex s = .next (performDirect true (Reg.loadValue .x (s.x - 1)) 2 s) := rfl

theorem exec_dey (s : State) :
    exec .dey s = .next (performDirect true (Reg.loadValue .y (s.y - 1)) 2 s) := rfl

/-! ### The statements -/

/-- Settles O56: INC's four forms, by their resolution, which makes no access and pays nothing. -/
theorem incIncrementsMemory : Obligations.IncIncrementsMemory := fun s zp base =>
  ⟨.of_resolvesTo (.zpg zp s), .of_resolvesTo (.zpgx zp s), .of_resolvesTo (.abs base s),
    .of_resolvesTo (.absx base s)⟩

/-- Settles O57: DEC's four forms, by their resolution, which makes no access and pays nothing. -/
theorem decDecrementsMemory : Obligations.DecDecrementsMemory := fun s zp base =>
  ⟨.of_resolvesTo (.zpg zp s), .of_resolvesTo (.zpgx zp s), .of_resolvesTo (.abs base s),
    .of_resolvesTo (.absx base s)⟩

/-- Settles O58: each of the four is the load of its new value, and makes no access of its own. -/
theorem registerIncrementsAndDecrements : Obligations.RegisterIncrementsAndDecrements := fun s =>
  ⟨exec_immediate_loads (exec_inx s), exec_immediate_loads (exec_iny s),
    exec_immediate_loads (exec_dex s), exec_immediate_loads (exec_dey s)⟩

end Sys2Proof.Claims
end

section
/-!
The statements about the bus: the flat memory, its canonical form, and what Ticks and the host may do to
it. All that a Tick does to the bus is a number of accesses (`Accesses`), so what every access keeps, a Tick
keeps.
-/

namespace Sys2Proof.Machine

/-! ### The canonical form is unique -/

/-- A canonical memory does not list what lies below its first address. -/
theorem Memory.read_of_lt_wfFrom {lo k : Nat} {m : Memory} (h : Memory.wfFrom lo m = true) (hk : k < lo) :
    m.read k = Config.unlistedByte := by
  induction m generalizing lo with
  | nil => rfl
  | cons c rest ih =>
    obtain ⟨c, v⟩ := c
    simp only [Memory.wfFrom, Bool.and_eq_true, decide_eq_true_eq] at h
    obtain ⟨⟨⟨hlo, -⟩, -⟩, tail⟩ := h
    rw [Memory.read, if_neg (by omega)]
    exact ih tail (by omega)

/-- A cell that a canonical memory begins with is the lowest address it lists. -/
theorem Memory.head_of_wfFrom {lo k : Nat} {v : Byte} {rest : Memory}
    (h : Memory.wfFrom lo ((k, v) :: rest) = true) :
    k < 65536 ∧ Memory.read ((k, v) :: rest) k ≠ Config.unlistedByte ∧
      ∀ j < k, Memory.read ((k, v) :: rest) j = Config.unlistedByte := by
  simp only [Memory.wfFrom, Bool.and_eq_true, decide_eq_true_eq] at h
  obtain ⟨⟨⟨-, inSpace⟩, listed⟩, tail⟩ := h
  refine ⟨inSpace, by rwa [Memory.read, if_pos rfl], fun j hj => ?_⟩
  rw [Memory.read, if_neg (by omega)]
  exact read_of_lt_wfFrom tail (by omega)

theorem Memory.tail_wfFrom {lo k : Nat} {v : Byte} {rest : Memory}
    (h : Memory.wfFrom lo ((k, v) :: rest) = true) : Memory.wfFrom (k + 1) rest = true := by
  simp only [Memory.wfFrom, Bool.and_eq_true] at h
  exact h.2

/-- By the cells in order: the first cells are the lowest addresses seen, so they agree, and the tails read
the same above them and list nothing below. -/
theorem Memory.eq_of_read_eq {lo : Nat} {m m' : Memory} (h : Memory.wfFrom lo m = true)
    (h' : Memory.wfFrom lo m' = true) (same : ∀ j < 65536, m.read j = m'.read j) : m = m' := by
  induction m generalizing lo m' with
  | nil =>
    cases m' with
    | nil => rfl
    | cons c' rest' =>
      obtain ⟨inSpace, listed, -⟩ := Memory.head_of_wfFrom h'
      exact absurd (same _ inSpace).symm listed
  | cons c rest ih =>
    obtain ⟨k, v⟩ := c
    obtain ⟨inSpace, listed, below⟩ := Memory.head_of_wfFrom h
    cases m' with
    | nil => exact absurd (same k inSpace) listed
    | cons c' rest' =>
      obtain ⟨k', v'⟩ := c'
      obtain ⟨inSpace', listed', below'⟩ := Memory.head_of_wfFrom h'
      have hk : k = k' := by
        refine le_antisymm (not_lt.1 fun lt => ?_) (not_lt.1 fun lt => ?_)
        · exact listed' ((same k' inSpace').symm.trans (below k' lt))
        · exact listed ((same k inSpace).trans (below' k lt))
      subst hk
      have hv : v = v' := by simpa [Memory.read] using same k inSpace
      subst hv
      have tails : ∀ j < 65536, Memory.read rest j = Memory.read rest' j := by
        intro j hj
        by_cases hjk : j ≤ k
        · rw [read_of_lt_wfFrom (Memory.tail_wfFrom h) (by omega),
            read_of_lt_wfFrom (Memory.tail_wfFrom h') (by omega)]
        · simpa [Memory.read, show k ≠ j by omega] using same j hj
      rw [ih (Memory.tail_wfFrom h) (Memory.tail_wfFrom h') tails]

end Sys2Proof.Machine

namespace Sys2Proof.Claims

open Sys2Proof.Machine Sys2Proof.Safety

/-! ### Accesses, and what they keep (20_memory.md R50, R56) -/

/-- From `s` to `t` exactly `n` accesses are made; between them everything may change but the bus. -/
inductive Accesses : Nat → State → State → Prop
  | refl (s : State) : Accesses 0 s s
  | offBus {n : Nat} {s t u : State} (h : Accesses n s t) (busKind : u.busKind = t.busKind)
      (mem : u.mem = t.mem) (trace : u.trace = t.trace) : Accesses n s u
  | read {n : Nat} {s t : State} (h : Accesses n s t) (addr : Addr) : Accesses (n + 1) s (t.afterRead addr)
  | write {n : Nat} {s t : State} (h : Accesses n s t) (addr : Addr) (v : Byte) :
      Accesses (n + 1) s (t.busWrite addr v)

/-- A property of the bus alone that every access keeps. -/
structure BusInvariant (P : State → Prop) : Prop where
  offBus : ∀ {s t : State}, t.busKind = s.busKind → t.mem = s.mem → t.trace = s.trace → P s → P t
  read : ∀ {s : State} (addr : Addr), P s → P (s.afterRead addr)
  write : ∀ {s : State} (addr : Addr) (v : Byte), P s → P (s.busWrite addr v)

theorem Accesses.keeps {P : State → Prop} (inv : BusInvariant P) {n : Nat} {s t : State}
    (h : Accesses n s t) (hs : P s) : P t := by
  induction h with
  | refl => exact hs
  | offBus _ busKind mem trace ih => exact inv.offBus busKind mem trace (ih hs)
  | read _ addr ih => exact inv.read addr (ih hs)
  | write _ addr v ih => exact inv.write addr v (ih hs)

theorem Accesses.trans {m n : Nat} {s t u : State} (h : Accesses m s t) (k : Accesses n t u) :
    Accesses (m + n) s u := by
  induction k with
  | refl => exact h
  | offBus _ busKind mem trace ih => exact (ih h).offBus busKind mem trace
  | read _ addr ih => exact (ih h).read addr
  | write _ addr v ih => exact (ih h).write addr v

/-- The history grows by one entry per access. -/
theorem Accesses.trace {n : Nat} {s t : State} (h : Accesses n s t) :
    ∃ new, t.trace = new ++ s.trace ∧ new.length = n := by
  induction h with
  | refl => exact ⟨[], rfl, rfl⟩
  | offBus _ _ _ same ih =>
    obtain ⟨new, hnew, hlen⟩ := ih
    exact ⟨new, same.trans hnew, hlen⟩
  | read _ addr ih =>
    obtain ⟨new, hnew, hlen⟩ := ih
    exact ⟨_ :: new, congrArg (_ :: ·) hnew, congrArg (· + 1) hlen⟩
  | write _ addr v ih =>
    obtain ⟨new, hnew, hlen⟩ := ih
    exact ⟨_ :: new, congrArg (_ :: ·) hnew, congrArg (· + 1) hlen⟩

/-! ### The accesses of a Tick and of Reset (40_engine_addressing.md R102) -/

theorem fetchByte_accesses (s : State) : Accesses 1 s s.fetchByte.2 :=
  ((Accesses.refl s).read s.pc).offBus rfl rfl rfl

theorem fetchWord_accesses (s : State) : Accesses 2 s s.fetchWord.2 :=
  (fetchByte_accesses s).trans (fetchByte_accesses _)

theorem readPointer_accesses (z : Byte) (s : State) : Accesses 2 s (readPointer z s).2 :=
  ((Accesses.refl s).read _).read _

theorem eaIndexed_accesses (base : Addr) (index : Byte) (s : State) :
    Accesses 0 s (eaIndexed base index s).2 :=
  (Accesses.refl s).offBus (pageCross_busKind ..) (pageCross_mem ..) (pageCross_trace ..)

theorem resolve_accesses (r : Resolver) (s : State) : Accesses (resolverReads r) s (resolve r s).2 := by
  cases r with
  | imp => exact .refl s
  | imm => exact (Accesses.refl s).offBus rfl rfl rfl
  | zpg | zpgx | zpgy | rel => exact fetchByte_accesses s
  | abs => exact fetchWord_accesses s
  | absx | absy => exact (fetchWord_accesses s).trans (eaIndexed_accesses ..)
  | ind => exact ((fetchWord_accesses s).read _).read _
  | indx => exact (fetchByte_accesses s).trans (readPointer_accesses _ _)
  | indy => exact ((fetchByte_accesses s).trans (readPointer_accesses _ _)).trans (eaIndexed_accesses ..)

theorem modifyWith_accesses (ea : Addr) (r : Byte) (s : State) : Accesses 1 s (modifyWith ea r s) :=
  ((Accesses.refl s).offBus (u := s.setP (setZN r s.p)) rfl rfl rfl).write ea r

theorem runHandler_accesses (h : Handler) (ea : Addr) (s : State) :
    Accesses (handlerAccesses h) s (runHandler h ea s) := by
  cases h with
  | lda | ldx | ldy | adc | sbc => exact ((Accesses.refl s).read ea).offBus rfl rfl rfl
  | sta | stx | sty => exact (Accesses.refl s).write ea _
  | inc | dec => exact ((Accesses.refl s).read ea).trans (modifyWith_accesses ea _ _)
  | inx | iny | dex | dey => exact (Accesses.refl s).offBus rfl rfl rfl

theorem perform_accesses (penalty : Bool) (r : Resolver) (h : Handler) (n : Nat) (s : State) :
    Accesses (resolverReads r + handlerAccesses h) s (perform penalty (resolve r) (runHandler h) n s) := by
  have start : Accesses 0 s (s.setCpcp penalty) := (Accesses.refl s).offBus rfl rfl rfl
  have resolved := start.trans (resolve_accesses r (s.setCpcp penalty))
  rw [Nat.zero_add] at resolved
  exact (resolved.trans (runHandler_accesses h (resolve r (s.setCpcp penalty)).1 _)).offBus rfl rfl rfl

/-- R102, row by row: no Tick makes more than six accesses. -/
theorem rows_accesses : ∀ row ∈ rows,
    1 + resolverReads row.resolver + handlerAccesses row.handler ≤ 6 := by
  decide

theorem step_next_accesses {s t : State} (h : step s = .next t) :
    ∃ row, lookup (s.busByte s.pc) = some row ∧
      Accesses (1 + resolverReads row.resolver + handlerAccesses row.handler) s t := by
  obtain ⟨row, hl, -⟩ := step_next_cases h
  rw [step_of_row hl] at h
  cases h
  refine ⟨row, hl, ?_⟩
  rw [Nat.add_assoc]
  exact (fetchByte_accesses s).trans (perform_accesses ..)

theorem step_fault_accesses {s t : State} {op : Byte} (h : step s = .fault (.unimplementedOpcode op t)) :
    Accesses 1 s t := by
  obtain ⟨-, -, rfl⟩ := step_fault_cases h
  exact (fetchByte_accesses s).offBus rfl rfl rfl

theorem resetCore_accesses (s : State) : Accesses 2 s (resetCore s) :=
  ((((Accesses.refl s).offBus rfl rfl rfl).read 0xFFFD).read 0xFFFC).offBus rfl rfl rfl

/-- A Tick that completes keeps what every access keeps. -/
theorem BusInvariant.step_next {P : State → Prop} (inv : BusInvariant P) {s t : State} (hs : P s)
    (h : step s = .next t) : P t := by
  obtain ⟨row, -, accesses⟩ := step_next_accesses h
  exact accesses.keeps inv hs

/-! ### The two invariants of a flat bus -/

theorem canonical_busInvariant : BusInvariant Canonical where
  offBus _ mem _ hs := by rwa [Canonical, mem]
  read _ hs := hs
  write addr v hs := State.busWrite_wf hs addr v

theorem flatAnswer_write_same (init : Addr → Byte) (addr : Addr) (v : Byte) (history : List BusAccess) :
    flatAnswer init addr (.write addr v :: history) = v := by
  simp [flatAnswer, lastWrite]

theorem flatAnswer_write_of_ne (init : Addr → Byte) {addr other : Addr} (h : other ≠ addr) (v : Byte)
    (history : List BusAccess) :
    flatAnswer init other (.write addr v :: history) = flatAnswer init other history := by
  simp [flatAnswer, lastWrite, h.symm]

theorem flatCoherent_busInvariant (init : Addr → Byte) : BusInvariant (FlatCoherent init) where
  offBus busKind mem trace hs := by rwa [FlatCoherent, busKind, mem, trace]
  read {s} addr hs := by
    obtain ⟨flat, history, memory⟩ := hs
    exact ⟨flat, ⟨(State.busByte_flat flat addr).trans (memory addr), history⟩, memory⟩
  write {s} addr v hs := by
    obtain ⟨flat, history, memory⟩ := hs
    refine ⟨flat, history, fun other => ?_⟩
    by_cases same : other = addr
    · subst same
      rw [State.busWrite_trace, flatAnswer_write_same, State.busWrite_mem, State.memAfterWrite_flat flat,
        Memory.read_write_same]
    · rw [State.busWrite_trace, flatAnswer_write_of_ne init same, State.busWrite_mem,
        State.read_memAfterWrite_of_ne s v same, memory]

/-! ### The statements -/

/-- Settles O12: the form is an invariant of the bus's accesses; placing bytes is writing them. -/
theorem tickKeepsCanonicalMemory : Obligations.TickKeepsCanonicalMemory := fun s hs =>
  ⟨fun _ ht => canonical_busInvariant.step_next hs ht,
    fun _ _ ht => (step_fault_accesses ht).keeps canonical_busInvariant hs,
    (resetCore_accesses s).keeps canonical_busInvariant hs,
    fun addr v => canonical_busInvariant.write addr v hs,
    State.withFetchWord_wf hs⟩

/-- Settles O14: coherence is an invariant of the bus's accesses, for every FLAT_INIT. -/
theorem tickKeepsFlatBusCoherent : Obligations.TickKeepsFlatBusCoherent := fun init s hs =>
  have inv := flatCoherent_busInvariant init
  ⟨fun _ ht => inv.step_next hs ht, fun _ _ ht => (step_fault_accesses ht).keeps inv hs,
    (resetCore_accesses s).keeps inv hs, fun addr => inv.read addr hs, fun addr v => inv.write addr v hs⟩

/-- Settles O27: the history grows by the accesses of the row's resolver and handler, six at most. -/
theorem busAccessesOfATick : Obligations.BusAccessesOfATick := by
  intro s
  refine ⟨fun t ht => ?_, fun op t ht => ?_⟩
  · obtain ⟨row, hl, accesses⟩ := step_next_accesses ht
    obtain ⟨new, hnew, hlen⟩ := accesses.trace
    rw [decodeTable_of_row hl]
    exact ⟨row.handler, row.resolver, new, rfl, rfl, hnew, hlen,
      hlen.le.trans (rows_accesses row (lookup_mem hl).1)⟩
  · obtain ⟨-, rfl, rfl⟩ := step_fault_cases ht
    rfl

/-- Settles O9: the laws of the memory, through the bus's answer. -/
theorem flatBusReturnsLastWrite : Obligations.FlatBusReturnsLastWrite := by
  intro s addr other v flat
  have written : (s.busWrite addr v).busKind = .flat := flat
  refine ⟨?_, fun ne => ?_, ?_⟩
  · rw [State.busByte_flat written, State.busWrite_mem, State.memAfterWrite_flat flat, Memory.read_write_same]
  · rw [State.busByte_flat written, State.busByte_flat flat, State.busWrite_mem,
      State.read_memAfterWrite_of_ne s v ne]
  · rw [State.busByte_flat flat, State.busByte_flat (s := s.afterRead addr) flat, State.afterRead_mem]

/-- Settles O10: the two lists agree cell by cell. -/
theorem canonicalMemoriesAreDetermined : Obligations.CanonicalMemoriesAreDetermined := fun _ _ h h' same =>
  Memory.eq_of_read_eq h h' fun j hj => same (BitVec.ofNatLT j hj)

/-- Settles O11: the empty memory is canonical. -/
theorem canonicalAtReset : Obligations.CanonicalAtReset := State.reset_wf

/-- Settles O13: nothing has been written, and Reset's two reads got the unlisted byte. -/
theorem coherentAtReset : Obligations.CoherentAtReset := ⟨rfl, ⟨rfl, rfl, trivial⟩, fun _ => rfl⟩

end Sys2Proof.Claims
end

section
/-!
The statements about the encoding. Row by row, `encode` writes the row's opcode and the operand bytes of its
shape, which is what `takeOperand` reads back; so each of the two undoes the other.
-/

namespace Sys2Proof.Machine

open Sys2Proof.Claims

/-! ### The rows and the encoder (30_encoding.md R71, R83) -/

/-- The bytes of the instructions that the row's shape gives. -/
def Encodes (row : Row) : Prop :=
  match row.shape with
  | .implied i => encode i = [row.opcode]
  | .byteOperand f => ∀ b, encode (f b) = [row.opcode, b]
  | .wordOperand f => ∀ w, encode (f w) = [row.opcode, loByte w, hiByte w]

theorem rows_encode : ∀ row ∈ rows, Encodes row := by
  simp only [rows, loadRows, storeRows, arithmeticRows, incDecRows, List.forall_mem_append,
    List.forall_mem_cons]
  and_intros
  all_goals simp [Encodes, encode]

/-- The instruction is one of those that the shape gives. -/
def Gives : Shape → Instr → Prop
  | .implied j, i => i = j
  | .byteOperand f, i => ∃ b, i = f b
  | .wordOperand f, i => ∃ w, i = f w

/-- The first byte of an instruction selects the row whose shape gives it. -/
theorem instr_of_row (i : Instr) : ∃ row, lookup ((encode i).headD 0) = some row ∧ Gives row.shape i := by
  cases i with
  | inx | iny | dex | dey => exact ⟨_, rfl, rfl⟩
  | _ => exact ⟨_, rfl, _, rfl⟩

theorem decode_of_row {op : Byte} {row : Row} (h : lookup op = some row) (tail : List Byte) :
    decode (op :: tail) = takeOperand op row.shape tail := by
  simp [decode, h]

/-- A list that decodes begins with an opcode whose row's shape takes the operand from what follows. -/
theorem decode_ok_cases {bytes rest : List Byte} {i : Instr} (h : decode bytes = .ok (i, rest)) :
    ∃ op tail row, bytes = op :: tail ∧ lookup op = some row ∧
      takeOperand op row.shape tail = .ok (i, rest) := by
  cases bytes with
  | nil => cases h
  | cons op tail =>
    cases hl : lookup op with
    | none => simp [decode, hl] at h
    | some row =>
      rw [decode_of_row hl] at h
      exact ⟨op, tail, row, rfl, hl, h⟩

/-- `takeOperand` reads back the operand bytes that `encode` writes. -/
theorem takeOperand_of_encodes {row : Row} {i : Instr} (he : Encodes row) (hi : Gives row.shape i)
    (rest : List Byte) :
    ∃ tail, encode i = row.opcode :: tail ∧
      takeOperand row.opcode row.shape (tail ++ rest) = .ok (i, rest) := by
  unfold Encodes at he
  cases hs : row.shape with
  | implied j =>
    rw [hs] at hi he
    subst hi
    exact ⟨[], he, rfl⟩
  | byteOperand f =>
    rw [hs] at hi he
    obtain ⟨b, rfl⟩ := hi
    exact ⟨[b], he b, rfl⟩
  | wordOperand f =>
    rw [hs] at hi he
    obtain ⟨w, rfl⟩ := hi
    exact ⟨[loByte w, hiByte w], he w, by simp [takeOperand]⟩

/-- What `takeOperand` takes are the operand bytes that `encode` writes. -/
theorem encode_of_takeOperand {row : Row} {i : Instr} {tail rest : List Byte} (he : Encodes row)
    (h : takeOperand row.opcode row.shape tail = .ok (i, rest)) :
    row.opcode :: tail = encode i ++ rest := by
  unfold Encodes at he
  cases hs : row.shape with
  | implied j =>
    rw [hs] at h he
    cases h
    rw [he]
    rfl
  | byteOperand f =>
    rw [hs] at h he
    match tail, h with
    | b :: _, h =>
      cases h
      rw [he]
      rfl
  | wordOperand f =>
    rw [hs] at h he
    match tail, h with
    | lo :: hi :: _, h =>
      cases h
      rw [he, loByte_concat, hiByte_concat]
      rfl

/-! ### The empty entries (30_encoding.md R84) -/

theorem lookup_isNone_iff (op : Byte) : (lookup op).isNone = true ↔ ∀ row ∈ rows, row.opcode ≠ op := by
  simp [lookup]

/-- R84's list is what R83's opcodes leave of the 256 bytes. -/
theorem emptyOpcodes_eq_filter :
    emptyOpcodes = (List.range 256).filter (fun k => rows.all (fun row => row.opcode.toNat != k)) := by
  decide +kernel

theorem rows_wellFormed : ∀ row ∈ rows, row.entry.wellFormed = true := by
  decide

/-- Every entry, implemented or empty, is well formed. -/
theorem decodeTable_wellFormed (op : Byte) : (decodeTable op).wellFormed = true := by
  cases hl : lookup op with
  | none => rw [decodeTable_of_empty hl]; exact DecodeEntry.empty_wellFormed op
  | some row => rw [decodeTable_of_row hl]; exact rows_wellFormed row (lookup_mem hl).1

/-! ### The statements -/

/-- Settles O15: the first byte selects the row that gives the instruction, and its shape reads the operand
back. -/
theorem decodeOfEncode : Obligations.DecodeOfEncode := by
  intro i rest _
  obtain ⟨row, hl, hi⟩ := instr_of_row i
  obtain ⟨mem, -⟩ := lookup_mem hl
  obtain ⟨tail, bytes, operand⟩ := takeOperand_of_encodes (rows_encode row mem) hi rest
  rw [bytes, List.headD_cons] at hl
  rw [bytes, List.cons_append, decode_of_row hl, operand]

/-- Settles O16: the opcode selects a row, and its shape has taken the bytes that the row encodes. -/
theorem decodedBytesAreItsEncoding : Obligations.DecodedBytesAreItsEncoding := by
  intro bytes rest i h
  obtain ⟨op, tail, row, rfl, hl, operand⟩ := decode_ok_cases h
  obtain ⟨mem, rfl⟩ := lookup_mem hl
  exact encode_of_takeOperand (rows_encode row mem) operand

/-- Settles O18: a byte selects no row iff it is no row's opcode, which leaves R84's list. -/
theorem emptyEntriesAreTheListed : Obligations.EmptyEntriesAreTheListed := by
  refine ⟨fun op => ?_, rfl, rfl, decodeTable_wellFormed⟩
  rw [lookup_isNone_iff, emptyOpcodes_eq_filter, List.mem_filter, List.mem_range, List.all_eq_true]
  simp only [bne_iff_ne, ne_eq, BitVec.toNat_inj, op.isLt, true_and]

/-- Settles O17: each word's bytes decode by computation. -/
theorem sampleWordsDecode : Obligations.SampleWordsDecode :=
  ⟨rfl, rfl, rfl, rfl, rfl, rfl, rfl, rfl, rfl⟩

end Sys2Proof.Machine
end

section
/-!
The statements about a whole Tick: what it fetches, what the host sees of it, what it does not depend on and
what it keeps. That a Tick does not see some part of the state is a simulation: states alike in all that a
Tick looks at stay alike through every operation it is made of.
-/

namespace Sys2Proof.Claims

open Sys2Proof.Machine Sys2Proof.Safety

/-! ### States that a Tick does not tell apart -/

/-- A relation between states that agree on all a Tick looks at, P's carry and the bus's answers among it,
and stay related under all that a Tick does. -/
structure TickSimulation (R : State → State → Prop) : Prop where
  a : ∀ {s s' : State}, R s s' → s'.a = s.a
  x : ∀ {s s' : State}, R s s' → s'.x = s.x
  y : ∀ {s s' : State}, R s s' → s'.y = s.y
  carry : ∀ {s s' : State}, R s s' → s'.p.getLsbD 0 = s.p.getLsbD 0
  pc : ∀ {s s' : State}, R s s' → s'.pc = s.pc
  cpcp : ∀ {s s' : State}, R s s' → s'.cpcp = s.cpcp
  busByte : ∀ {s s' : State}, R s s' → ∀ addr, s'.busByte addr = s.busByte addr
  setA : ∀ {s s' : State}, R s s' → ∀ v, R (s.setA v) (s'.setA v)
  setX : ∀ {s s' : State}, R s s' → ∀ v, R (s.setX v) (s'.setX v)
  setY : ∀ {s s' : State}, R s s' → ∀ v, R (s.setY v) (s'.setY v)
  setZN : ∀ {s s' : State}, R s s' → ∀ v, R (s.setP (setZN v s.p)) (s'.setP (setZN v s'.p))
  putCZVN : ∀ {s s' : State}, R s s' → ∀ c z v n,
    R (s.setP (putCZVN c z v n s.p)) (s'.setP (putCZVN c z v n s'.p))
  setPc : ∀ {s s' : State}, R s s' → ∀ v, R (s.setPc v) (s'.setPc v)
  setCpcp : ∀ {s s' : State}, R s s' → ∀ b, R (s.setCpcp b) (s'.setCpcp b)
  addCycles : ∀ {s s' : State}, R s s' → ∀ n, R (s.addCycles n) (s'.addCycles n)
  afterRead : ∀ {s s' : State}, R s s' → ∀ addr, R (s.afterRead addr) (s'.afterRead addr)
  busWrite : ∀ {s s' : State}, R s s' → ∀ addr v, R (s.busWrite addr v) (s'.busWrite addr v)

namespace TickSimulation

/-- The same value, with related states. -/
def Alike {α : Type} (R : State → State → Prop) (r r' : α × State) : Prop := r'.1 = r.1 ∧ R r.2 r'.2

section
variable {R : State → State → Prop} (sim : TickSimulation R) {s s' : State}
include sim

theorem busRead (h : R s s') {addr addr' : Addr} (same : addr' = addr) :
    Alike R (s.busRead addr) (s'.busRead addr') := by
  subst same
  exact ⟨sim.busByte h _, sim.afterRead h _⟩

theorem advancePc (h : R s s') : R s.advancePc s'.advancePc := by
  rw [State.advancePc, State.advancePc, sim.pc h]
  exact sim.setPc h _

theorem fetchByte (h : R s s') : Alike R s.fetchByte s'.fetchByte := by
  obtain ⟨byte, related⟩ := sim.busRead h (sim.pc h)
  exact ⟨byte, sim.advancePc related⟩

theorem fetchWord (h : R s s') : Alike R s.fetchWord s'.fetchWord := by
  obtain ⟨lo, afterLo⟩ := sim.fetchByte h
  obtain ⟨hi, afterHi⟩ := sim.fetchByte afterLo
  exact ⟨congrArg₂ concat hi lo, afterHi⟩

theorem readPointer (h : R s s') {z z' : Byte} (same : z' = z) :
    Alike R (readPointer z s) (readPointer z' s') := by
  subst same
  obtain ⟨lo, afterLo⟩ := sim.busRead h (addr := zext16 z') rfl
  obtain ⟨hi, afterHi⟩ := sim.busRead afterLo (addr := zext16 (z' + 1)) rfl
  exact ⟨congrArg₂ concat hi lo, afterHi⟩

theorem eaInd (h : R s s') {ptr ptr' : Addr} (same : ptr' = ptr) : Alike R (eaInd ptr s) (eaInd ptr' s') := by
  subst same
  obtain ⟨lo, afterLo⟩ := sim.busRead h (addr := ptr') rfl
  obtain ⟨hi, afterHi⟩ := sim.busRead afterLo rfl
  exact ⟨congrArg₂ concat hi lo, afterHi⟩

theorem eaIndexed (h : R s s') {base base' : Addr} {index index' : Byte} (same : base' = base)
    (sameIndex : index' = index) : Alike R (eaIndexed base index s) (eaIndexed base' index' s') := by
  subst same sameIndex
  refine ⟨rfl, ?_⟩
  simp only [Machine.eaIndexed, pageCross, sim.cpcp h]
  split
  · exact sim.addCycles h 1
  · exact h

theorem resolve (r : Resolver) (h : R s s') : Alike R (resolve r s) (resolve r s') := by
  cases r with
  | imp => exact ⟨rfl, h⟩
  | imm => exact ⟨sim.pc h, sim.advancePc h⟩
  | zpg =>
    obtain ⟨byte, fetched⟩ := sim.fetchByte h
    exact ⟨congrArg zext16 byte, fetched⟩
  | zpgx =>
    obtain ⟨byte, fetched⟩ := sim.fetchByte h
    exact ⟨congrArg zext16 (congrArg₂ (· + ·) byte (sim.x fetched)), fetched⟩
  | zpgy =>
    obtain ⟨byte, fetched⟩ := sim.fetchByte h
    exact ⟨congrArg zext16 (congrArg₂ (· + ·) byte (sim.y fetched)), fetched⟩
  | abs => exact sim.fetchWord h
  | absx =>
    obtain ⟨base, fetched⟩ := sim.fetchWord h
    exact sim.eaIndexed fetched base (sim.x fetched)
  | absy =>
    obtain ⟨base, fetched⟩ := sim.fetchWord h
    exact sim.eaIndexed fetched base (sim.y fetched)
  | ind =>
    obtain ⟨ptr, fetched⟩ := sim.fetchWord h
    exact sim.eaInd fetched ptr
  | indx =>
    obtain ⟨byte, fetched⟩ := sim.fetchByte h
    exact sim.readPointer fetched (congrArg₂ (· + ·) byte (sim.x fetched))
  | indy =>
    obtain ⟨byte, fetched⟩ := sim.fetchByte h
    obtain ⟨base, related⟩ := sim.readPointer fetched byte
    exact sim.eaIndexed related base (sim.y fetched)
  | rel =>
    obtain ⟨offset, fetched⟩ := sim.fetchByte h
    exact ⟨congrArg₂ (fun pc b => pc + sext16 b) (sim.pc h) offset, fetched⟩

theorem loadValue (dest : Reg) (h : R s s') {v v' : Byte} (same : v' = v) :
    R (dest.loadValue v s) (dest.loadValue v' s') := by
  subst same
  cases dest with
  | a => exact sim.setZN (sim.setA h _) _
  | x => exact sim.setZN (sim.setX h _) _
  | y => exact sim.setZN (sim.setY h _) _

theorem get (src : Reg) (h : R s s') : src.get s' = src.get s := by
  cases src with
  | a => exact sim.a h
  | x => exact sim.x h
  | y => exact sim.y h

theorem setResult (h : R s s') (r : Byte) (c o : Bool) : R (setResult r c o s) (setResult r c o s') :=
  sim.putCZVN (sim.setA h r) ..

theorem adcValue (h : R s s') {v v' : Byte} (same : v' = v) : R (adcValue v s) (adcValue v' s') := by
  rw [adcValue_eq_setResult, adcValue_eq_setResult, same, sim.a h, sim.carry h]
  exact sim.setResult h ..

theorem sbcValue (h : R s s') {v v' : Byte} (same : v' = v) : R (sbcValue v s) (sbcValue v' s') := by
  rw [sbcValue_eq_setResult, sbcValue_eq_setResult, same, sim.a h, sim.carry h]
  exact sim.setResult h ..

theorem modifyWith (h : R s s') (ea : Addr) {r r' : Byte} (same : r' = r) :
    R (modifyWith ea r s) (modifyWith ea r' s') := by
  subst same
  exact sim.busWrite (sim.setZN h _) ea _

theorem load (dest : Reg) (h : R s s') (ea : Addr) :
    R (runHandler dest.loader ea s) (runHandler dest.loader ea s') := by
  rw [runHandler_loader, runHandler_loader]
  exact sim.loadValue dest (sim.afterRead h ea) (sim.busByte h ea)

theorem store (src : Reg) (h : R s s') (ea : Addr) :
    R (runHandler src.storer ea s) (runHandler src.storer ea s') := by
  rw [runHandler_storer, runHandler_storer, sim.get src h]
  exact sim.busWrite h ea _

theorem runHandler (hd : Handler) (h : R s s') (ea : Addr) : R (runHandler hd ea s) (runHandler hd ea s') := by
  have read := sim.afterRead h ea
  have byte := sim.busByte h ea
  cases hd with
  | lda => exact sim.load .a h ea
  | ldx => exact sim.load .x h ea
  | ldy => exact sim.load .y h ea
  | sta => exact sim.store .a h ea
  | stx => exact sim.store .x h ea
  | sty => exact sim.store .y h ea
  | adc => exact sim.adcValue read byte
  | sbc => exact sim.sbcValue read byte
  | inc => exact sim.modifyWith read ea (congrArg (· + 1) byte)
  | dec => exact sim.modifyWith read ea (congrArg (· - 1) byte)
  | inx => exact sim.loadValue .x h (congrArg (· + 1) (sim.x h))
  | iny => exact sim.loadValue .y h (congrArg (· + 1) (sim.y h))
  | dex => exact sim.loadValue .x h (congrArg (· - 1) (sim.x h))
  | dey => exact sim.loadValue .y h (congrArg (· - 1) (sim.y h))

theorem perform (h : R s s') (penalty : Bool) (r : Resolver) (hd : Handler) (n : Nat) :
    R (perform penalty (Machine.resolve r) (Machine.runHandler hd) n s)
      (perform penalty (Machine.resolve r) (Machine.runHandler hd) n s') := by
  obtain ⟨ea, resolved⟩ := sim.resolve r (sim.setCpcp h penalty)
  rw [Machine.perform, Machine.perform, ea]
  exact sim.addCycles (sim.runHandler hd resolved _) n

/-- From related states a Tick completes alike. -/
theorem step_next (h : R s s') {t : State} (ht : step s = .next t) : ∃ t', step s' = .next t' ∧ R t t' := by
  obtain ⟨row, hl, -⟩ := step_next_cases ht
  obtain ⟨opcode, fetched⟩ := sim.fetchByte h
  have hl' : lookup (s'.busByte s'.pc) = some row := (congrArg lookup opcode).trans hl
  rw [step_of_row hl] at ht
  cases ht
  exact ⟨_, step_of_row hl', sim.perform fetched ..⟩

end

end TickSimulation

/-! ### S and the bits I, D, B and U (40_engine_addressing.md R104) -/

/-- P with the bits I, D, B and U of `q`. -/
def silentP (q p : Byte) : Byte := (p &&& 0xC3) ||| (q &&& 0x3C)

theorem silentP_getLsbD (q p : Byte) {i : Nat} (hi : i < 8) :
    (silentP q p).getLsbD i = if i = 0 ∨ i = 1 ∨ i = 6 ∨ i = 7 then p.getLsbD i else q.getLsbD i := by
  rw [silentP, BitVec.getLsbD_or, BitVec.getLsbD_and, BitVec.getLsbD_and]
  interval_cases i <;> simp

theorem setZN_silentP (v q p : Byte) : setZN v (silentP q p) = silentP q (setZN v p) := by
  refine BitVec.eq_of_getLsbD_eq fun i hi => ?_
  rw [setZN_getLsbD, silentP_getLsbD _ _ hi, silentP_getLsbD _ _ hi, setZN_getLsbD]
  grind

theorem putCZVN_silentP (c z v n : Bool) (q p : Byte) :
    putCZVN c z v n (silentP q p) = silentP q (putCZVN c z v n p) := by
  refine BitVec.eq_of_getLsbD_eq fun i hi => ?_
  rw [putCZVN_getLsbD, silentP_getLsbD _ _ hi, silentP_getLsbD _ _ hi, putCZVN_getLsbD]
  grind

theorem silentP_self (p : Byte) : silentP p p = p := by
  refine BitVec.eq_of_getLsbD_eq fun i hi => ?_
  rw [silentP_getLsbD _ _ hi, ite_id]

theorem silentP_silent (q p : Byte) : silentP q p &&& 0x3C = q &&& 0x3C := by
  refine BitVec.eq_of_getLsbD_eq fun i hi => ?_
  rw [BitVec.getLsbD_and, BitVec.getLsbD_and, silentP_getLsbD _ _ hi]
  interval_cases i <;> simp

theorem silent_simulation (sp q : Byte) : TickSimulation fun s s' => s' = withSilent sp q s := by
  constructor
  case carry => rintro s _ rfl; exact silentP_getLsbD q s.p (by decide)
  case setZN => rintro s _ rfl v; exact congrArg (withSilent sp q s).setP (setZN_silentP v q s.p)
  case putCZVN =>
    rintro s _ rfl c z v n
    exact congrArg (withSilent sp q s).setP (putCZVN_silentP c z v n q s.p)
  all_goals
    rintro s _ rfl
    intros
    rfl

/-- Replacing S and the silent bits before a Tick is replacing them after it. -/
theorem step_next_withSilent {s t : State} (h : step s = .next t) (sp q : Byte) :
    step (withSilent sp q s) = .next (withSilent sp q t) := by
  obtain ⟨_, hstep, rfl⟩ := (silent_simulation sp q).step_next rfl h
  exact hstep

/-- Writing S and the silent bits that a state has changes nothing, and so it changes nothing after the
Tick: the Tick has kept them. -/
theorem step_next_silent {s t : State} (h : step s = .next t) :
    t.sp = s.sp ∧ t.p &&& 0x3C = s.p &&& 0x3C := by
  have same : withSilent s.sp s.p s = s := congrArg s.setP (silentP_self s.p)
  have kept := step_next_withSilent h s.sp s.p
  rw [same, h] at kept
  injection kept with kept
  rw [kept]
  exact ⟨rfl, silentP_silent s.p t.p⟩

/-! ### The history behind a flat bus -/

/-- On a flat bus the two states differ in the record of faults and in what their histories held before the
same newest accesses. -/
def SameSince (old history : List BusAccess) (faults : List Byte) (s s' : State) : Prop :=
  s.busKind = .flat ∧ ∃ new, s.trace = new ++ old ∧ s' = { s with trace := new ++ history, faults := faults }

theorem busByte_flat_of_record {s : State} (flat : s.busKind = .flat) (history : List BusAccess)
    (faults : List Byte) (addr : Addr) :
    { s with trace := history, faults := faults }.busByte addr = s.busByte addr := by
  rw [State.busByte_flat flat, State.busByte_flat (s := { s with trace := history, faults := faults }) flat]

theorem sameSince_simulation (old history : List BusAccess) (faults : List Byte) :
    TickSimulation (SameSince old history faults) := by
  constructor
  case busByte =>
    rintro s _ ⟨flat, new, -, rfl⟩ addr
    exact busByte_flat_of_record flat _ _ addr
  case a | x | y | carry | pc | cpcp =>
    rintro s _ ⟨-, new, -, rfl⟩
    rfl
  case afterRead =>
    rintro s _ ⟨flat, new, since, rfl⟩ addr
    refine ⟨flat, .read addr (s.busByte addr) :: new, congrArg (_ :: ·) since, ?_⟩
    rw [State.afterRead, busByte_flat_of_record flat]
    rfl
  case busWrite =>
    rintro s _ ⟨flat, new, since, rfl⟩ addr v
    exact ⟨flat, .write addr v :: new, congrArg (_ :: ·) since, rfl⟩
  all_goals
    rintro s _ ⟨flat, new, since, rfl⟩
    intros
    exact ⟨flat, new, since, rfl⟩

/-! ### What every Tick that completes keeps -/

theorem fetchOperand_keeps (shape : Shape) (s : State) :
    (fetchOperand shape s).2.busKind = s.busKind ∧ (fetchOperand shape s).2.faults = s.faults := by
  cases shape <;> exact ⟨rfl, rfl⟩

/-- No Tick that completes changes the bus's kind or records a fault. -/
theorem step_next_keeps {s t : State} (h : step s = .next t) :
    t.busKind = s.busKind ∧ t.faults = s.faults := by
  obtain ⟨row, -, hx⟩ := step_next_cases h
  obtain ⟨-, -, busKind, faults⟩ := exec_untouched hx
  obtain ⟨fetchedKind, fetchedFaults⟩ := fetchOperand_keeps row.shape (s.afterRead s.pc).advancePc
  exact ⟨busKind.trans fetchedKind, faults.trans fetchedFaults⟩

theorem hostTick_of_next {s t : State} (h : step s = .next t) : hostTick s = t := by
  rw [hostTick, h]

theorem hostTick_of_fault {s t : State} {op : Byte} (h : step s = .fault (.unimplementedOpcode op t)) :
    hostTick s = t := by
  rw [hostTick, h]

/-- A run of `n + 1` Ticks is a Tick that completes and a run of `n`. -/
theorem run_succ_next {n : Nat} {s t : State} (h : Host.Core.run Sys2Proof.core (n + 1) s = .next t) :
    ∃ u, step s = .next u ∧ Host.Core.run Sys2Proof.core n u = .next t := by
  cases hs : Sys2Proof.core.step s with
  | next u =>
    simp only [Host.Core.run, hs] at h
    exact ⟨u, hs, h⟩
  | fault _ | refused _ => simp [Host.Core.run, hs] at h

theorem run_keeps {n : Nat} {s t : State} (h : Host.Core.run Sys2Proof.core n s = .next t) :
    t.sp = s.sp ∧ t.p &&& 0x3C = s.p &&& 0x3C ∧ t.faults = s.faults ∧ t.busKind = s.busKind := by
  induction n generalizing s with
  | zero => cases h; exact ⟨rfl, rfl, rfl, rfl⟩
  | succ n ih =>
    obtain ⟨u, hu, rest⟩ := run_succ_next h
    obtain ⟨sp, p, faults, busKind⟩ := ih rest
    obtain ⟨sp', p'⟩ := step_next_silent hu
    obtain ⟨busKind', faults'⟩ := step_next_keeps hu
    exact ⟨sp.trans sp', p.trans p', faults.trans faults', busKind.trans busKind'⟩

/-! ### The flags an instruction writes (10_state.md R24) -/

/-- The bits of P outside the mask are as before. -/
def KeepsFlagsBut (mask : Byte) (s t : State) : Prop := t.p &&& ~~~mask = s.p &&& ~~~mask

theorem setZN_keeps (v p : Byte) : setZN v p &&& ~~~0x82 = p &&& ~~~0x82 := by
  refine BitVec.eq_of_getLsbD_eq fun i hi => ?_
  rw [BitVec.getLsbD_and, BitVec.getLsbD_and, setZN_getLsbD]
  interval_cases i <;> simp

theorem putCZVN_keeps (c z v n : Bool) (p : Byte) : putCZVN c z v n p &&& ~~~0xC3 = p &&& ~~~0xC3 := by
  refine BitVec.eq_of_getLsbD_eq fun i hi => ?_
  rw [BitVec.getLsbD_and, BitVec.getLsbD_and, putCZVN_getLsbD]
  interval_cases i <;> simp

theorem runHandler_flags (h : Handler) (ea : Addr) (s : State) :
    KeepsFlagsBut (writableFlags h) s (runHandler h ea s) := by
  cases h with
  | lda | ldx | ldy | inc | dec | inx | iny | dex | dey => exact setZN_keeps _ s.p
  | sta | stx | sty => rfl
  | adc | sbc => exact putCZVN_keeps _ _ _ _ s.p

/-- An operand form writes no flag (40_engine_addressing.md R110), so the handler's are the rule's. -/
theorem perform_flags {row : Row} {form : State → Addr × State} (hf : ∀ u, ReadsOnly u (form u).2)
    {penalty : Bool} {n : Nat} {s : State} :
    KeepsFlagsBut (writableFlags row.handler) s (perform penalty form (runHandler row.handler) n s) := by
  have handled := runHandler_flags row.handler (form (s.setCpcp penalty)).1 (form (s.setCpcp penalty)).2
  rwa [KeepsFlagsBut, (hf (s.setCpcp penalty)).p] at handled

/-- The cases go by operand form. An immediate or implied form runs its handler's effect on a byte. -/
theorem exec_flags {i : Instr} {row : Row} (hl : lookup ((encode i).headD 0) = some row) (s : State) :
    ∃ t, exec i s = .next t ∧ KeepsFlagsBut (writableFlags row.handler) s t := by
  cases i with
  | ldaImm | ldxImm | ldyImm | inx | iny | dex | dey =>
    cases hl
    exact ⟨_, rfl, setZN_keeps _ s.p⟩
  | adcImm | sbcImm =>
    cases hl
    exact ⟨_, rfl, putCZVN_keeps _ _ _ _ s.p⟩
  | ldaAbsx | ldyAbsx | staAbsx | adcAbsx | sbcAbsx | incAbsx | decAbsx =>
    cases hl
    exact ⟨_, rfl, perform_flags (eaAbsx_readsOnly _)⟩
  | ldaAbsy | ldxAbsy | staAbsy | adcAbsy | sbcAbsy =>
    cases hl
    exact ⟨_, rfl, perform_flags (eaAbsy_readsOnly _)⟩
  | ldaIndx | staIndx | adcIndx | sbcIndx =>
    cases hl
    exact ⟨_, rfl, perform_flags (eaIndx_readsOnly _)⟩
  | ldaIndy | staIndy | adcIndy | sbcIndy =>
    cases hl
    exact ⟨_, rfl, perform_flags (eaIndy_readsOnly _)⟩
  | _ =>
    cases hl
    exact ⟨_, rfl, perform_flags ReadsOnly.refl⟩

/-! ### Reading bytes at PC on a flat bus -/

/-- The state after the bytes have been read at PC, one after another. -/
def afterBytes (bytes : List Byte) (s : State) : State :=
  { s with pc := s.pc + BitVec.ofNat 16 bytes.length, trace := readInOrder bytes s.pc s.trace }

/-- On a flat bus the byte at PC is read first, and the others after it. -/
theorem afterBytes_cons {s : State} (flat : s.busKind = .flat) (rest : List Byte) :
    afterBytes (s.mem.read s.pc.toNat :: rest) s = afterBytes rest (s.afterRead s.pc).advancePc := by
  have length : s.pc + BitVec.ofNat 16 (rest.length + 1) = s.pc + 1 + BitVec.ofNat 16 rest.length := by
    rw [Nat.add_comm, BitVec.ofNat_add, ← BitVec.add_assoc]
    rfl
  simp only [afterBytes, List.length_cons, length, ← State.busByte_flat flat]
  rfl

theorem afterBytes_nil (s : State) : afterBytes [] s = s :=
  congrArg s.setPc (BitVec.add_zero s.pc)

/-! ### The statements -/

/-- Settles O21: the fetch reads the operand that the shape needs, and `exec` runs what it gives. -/
theorem stepFetchesByShape : Obligations.StepFetchesByShape := by
  intro s row hl
  have fetched : step s = exec (fetchOperand row.shape (s.afterRead s.pc).advancePc).1
      (fetchOperand row.shape (s.afterRead s.pc).advancePc).2 := by
    rw [step, fetchInstr_of_row hl]
  refine ⟨fun i shape => ?_, fun f shape => ?_, fun f shape => ?_⟩ <;> rw [fetched, shape] <;> rfl

/-- Settles O20: the decoded instruction is the one its row's shape fetches, byte by byte. -/
theorem stepRunsDecodedInstruction : Obligations.StepRunsDecodedInstruction := by
  intro s i rest flat _ hd
  show step s = exec i (afterBytes (encode i) s)
  obtain ⟨op, tail, row, bytes, hl, operand⟩ := decode_ok_cases hd
  injection bytes with opcode bytes
  subst opcode bytes
  have hl' : lookup (s.busByte s.pc) = some row := by rwa [State.busByte_flat flat]
  obtain ⟨implied, byte, word⟩ := stepFetchesByShape s row hl'
  obtain ⟨mem, hop⟩ := lookup_mem hl
  have encodes := rows_encode row mem
  rw [Encodes, hop] at encodes
  let s1 := (s.afterRead s.pc).advancePc
  let s2 := (s1.afterRead s1.pc).advancePc
  have flat1 : s1.busKind = .flat := flat
  have flat2 : s2.busKind = .flat := flat
  have next : s2.pc = s.pc + 2 := BitVec.add_assoc s.pc 1 1
  cases shape : row.shape with
  | implied j =>
    rw [shape] at operand encodes
    cases operand
    rw [implied _ shape, encodes, afterBytes_cons flat, afterBytes_nil]
  | byteOperand f =>
    rw [shape] at operand encodes
    cases operand
    rw [byte _ shape, encodes, afterBytes_cons flat]
    exact congrArg₂ exec (congrArg f (State.busByte_flat flat1 _))
      ((afterBytes_cons flat1 []).trans (afterBytes_nil s2)).symm
  | wordOperand f =>
    rw [shape] at operand encodes
    cases operand
    rw [word _ shape, encodes, loByte_concat, hiByte_concat, afterBytes_cons flat, ← next]
    exact congrArg₂ exec
      (congrArg f (congrArg₂ concat (State.busByte_flat flat2 _) (State.busByte_flat flat1 _)))
      ((afterBytes_cons flat1 _).trans ((afterBytes_cons flat2 []).trans (afterBytes_nil _))).symm

/-- Settles O22: the fault's state is the fetch's, with the byte recorded. -/
theorem emptyEntryFaults : Obligations.EmptyEntryFaults := fun _ => step_of_empty

/-- Settles O25: a completed Tick records nothing; the fault carries the state the host sees. -/
theorem hostTicksOnAfterFault : Obligations.HostTicksOnAfterFault := by
  refine fun s => ⟨fun t ht => ?_, fun op t ht => ?_⟩
  · obtain ⟨-, faults⟩ := step_next_keeps ht
    exact ⟨hostTick_of_next ht, faults⟩
  · obtain ⟨-, -, rfl⟩ := step_fault_cases ht
    exact ⟨hostTick_of_fault ht, rfl, rfl⟩

/-- Settles O29: a Tick's simulation, for the states that differ in S and the silent bits. -/
theorem silentStateIsNeitherReadNorWritten : Obligations.SilentStateIsNeitherReadNorWritten := by
  refine fun s sp q => ⟨fun t ht => ⟨step_next_withSilent ht sp q, step_next_silent ht⟩, fun op t ht => ?_⟩
  obtain ⟨hl, rfl, rfl⟩ := step_fault_cases ht
  exact ⟨step_of_empty (s := withSilent sp q s) hl, rfl, rfl⟩

/-- Settles O30: the Tick's step 4 writes cpcp before anything reads it. -/
theorem cpcpIsUnobservable : Obligations.CpcpIsUnobservable := by
  intro s t b h
  obtain ⟨row, hl, -⟩ := step_next_cases h
  rw [step_of_row hl] at h
  exact (step_of_row (s := s.setCpcp b) hl).trans h

/-- Settles O31: the accesses added are those of the Tick from the same state with another past. -/
theorem flatTickIgnoresHistory : Obligations.FlatTickIgnoresHistory := by
  intro s t flat ht
  obtain ⟨row, -, accesses⟩ := step_next_accesses ht
  obtain ⟨new, hnew, -⟩ := accesses.trace
  refine ⟨new, hnew, fun history faults => ?_⟩
  obtain ⟨t', ht', -, new', hnew', rfl⟩ :=
    (sameSince_simulation s.trace history faults).step_next ⟨flat, [], rfl, rfl⟩ ht
  rw [hnew, List.append_cancel_right_eq] at hnew'
  rw [hnew']
  exact ht'

/-- Settles O32: each handler writes P by SetZN, by its four flags or not at all. -/
theorem flagsWrittenAsTabled : Obligations.FlagsWrittenAsTabled := by
  intro i s t row ht hl
  obtain ⟨u, hu, kept⟩ := exec_flags hl s
  rw [hu] at ht
  cases ht
  exact kept

/-- Settles O33: by induction over the run, from what one Tick keeps. -/
theorem runsKeepStackPointerAndUnusedBit : Obligations.RunsKeepStackPointerAndUnusedBit := by
  intro n s t h
  obtain ⟨sp, p, faults, busKind⟩ := run_keeps h
  exact ⟨sp, p, faults, busKind, fun none => ⟨h, faults.trans none⟩⟩

end Sys2Proof.Claims
end

section
/-!
The statements about the address resolvers at PC: on any bus by their reads in order, and on a flat bus in
numbers.
-/

namespace Sys2Proof.Machine

open Sys2Proof.Claims

/-! ### Words in numbers -/

theorem hiByte_toNat (w : Addr) : (hiByte w).toNat = w.toNat / 256 := by
  rw [hiByte, BitVec.extractLsb'_toNat, Nat.shiftRight_eq_div_pow, Nat.mod_eq_of_lt (by omega)]

theorem loByte_toNat (w : Addr) : (loByte w).toNat = w.toNat % 256 := by
  rw [loByte, BitVec.extractLsb'_toNat, Nat.shiftRight_zero]

theorem page_toNat_eq_iff (u v : Addr) : page u = page v ↔ u.toNat / 256 = v.toNat / 256 := by
  rw [page_eq_iff, ← BitVec.toNat_inj, hiByte_toNat, hiByte_toNat]

theorem add_zext16_toNat (base : Addr) (index : Byte) :
    (base + zext16 index).toNat = (base.toNat + index.toNat) % 65536 := by
  rw [BitVec.toNat_add, zext16_toNat]

theorem and_or_and_eq_concat (u v : Addr) :
    (u &&& 0xFF00) ||| (v &&& 0x00FF) = concat (hiByte u) (loByte v) := by
  apply BitVec.eq_of_getLsbD_eq
  intro i hi
  simp only [concat, hiByte, loByte, BitVec.getLsbD_or, BitVec.getLsbD_and, BitVec.getLsbD_append,
    BitVec.getLsbD_extractLsb']
  interval_cases i <;> simp

theorem loByte_add_one (w : Addr) : loByte (w + 1) = loByte w + 1 := by
  rw [← BitVec.toNat_inj, loByte_toNat, BitVec.toNat_add, BitVec.toNat_add, loByte_toNat]
  exact (Nat.mod_mod_of_dvd _ (by decide)).trans (Nat.mod_add_mod _ 256 1).symm

/-- IND's second address is in the pointer's own page, its low byte one further (R120). -/
theorem ind_second (ptr : Addr) :
    (ptr &&& 0xFF00) ||| ((ptr + 1) &&& 0x00FF) = concat (hiByte ptr) (loByte ptr + 1) := by
  rw [and_or_and_eq_concat, loByte_add_one]

theorem ind_second_toNat (ptr : Addr) :
    (concat (hiByte ptr) (loByte ptr + 1)).toNat = ptr.toNat / 256 * 256 + (ptr.toNat + 1) % 256 := by
  rw [concat_toNat, hiByte_toNat, ← loByte_add_one, loByte_toNat, BitVec.toNat_add]
  exact congrArg _ (Nat.mod_mod_of_dvd _ (by decide))

/-! ### The fetched word and the pointer's word on a flat bus -/

/-- The word that two reads make, the low byte first. -/
theorem wordRead_flat {s : State} (flat : s.busKind = .flat) (lo hi : Addr) :
    (concat ((s.afterRead lo).busByte hi) (s.busByte lo)).toNat =
      (s.mem.read hi.toNat).toNat * 256 + (s.mem.read lo.toNat).toNat := by
  have high := State.busByte_flat (s := s.afterRead lo) flat hi
  rw [concat_toNat, high, State.busByte_flat flat, State.afterRead_mem]

theorem fetchWord_flat {s : State} (flat : s.busKind = .flat) :
    s.fetchWord.1.toNat = (s.mem.read (s.pc + 1).toNat).toNat * 256 + (s.mem.read s.pc.toNat).toNat :=
  wordRead_flat flat s.pc (s.pc + 1)

/-- The fetch of a word moves PC by two and adds to the history. -/
theorem fetchWord_state (s : State) :
    s.fetchWord.2 = { s with pc := s.pc + 2, trace := s.fetchWord.2.trace } := by
  have pc : s.pc + 2 = s.pc + 1 + 1 := (BitVec.add_assoc s.pc 1 1).symm
  rw [pc]
  rfl

theorem readPointer_flat (z : Byte) {s : State} (flat : s.busKind = .flat) :
    (readPointer z s).1.toNat =
      (s.mem.read ((z.toNat + 1) % 256)).toNat * 256 + (s.mem.read z.toNat).toNat := by
  have word := wordRead_flat flat (zext16 z) (zext16 (z + 1))
  rwa [zext16_add_toNat, zext16_toNat] at word

theorem eaInd_flat (ptr : Addr) {s : State} (flat : s.busKind = .flat) :
    (eaInd ptr s).1.toNat =
      (s.mem.read (ptr.toNat / 256 * 256 + (ptr.toNat + 1) % 256)).toNat * 256 +
        (s.mem.read ptr.toNat).toNat := by
  have word := wordRead_flat flat ptr (concat (hiByte ptr) (loByte ptr + 1))
  rwa [ind_second_toNat, ← ind_second] at word

/-- Indexing in numbers: the page test compares the words divided by 256. -/
theorem eaIndexed_state (base : Addr) (index : Byte) (s : State) :
    (eaIndexed base index s).2 = { s with
      cycles := s.cycles +
        if s.cpcp = true ∧ (base.toNat + index.toNat) % 65536 / 256 ≠ base.toNat / 256 then 1 else 0 } := by
  simp only [eaIndexed, pageCross, ne_eq, page_toNat_eq_iff, add_zext16_toNat]
  split
  · rfl
  · exact (congrArg s.setCycles (BitVec.add_zero _)).symm

theorem rows_not_ind : ∀ row ∈ rows, row.resolver ≠ .ind := by
  decide

/-! ### The statements -/

/-- Settles O36: the fetched word in numbers, then indexing in numbers. -/
theorem absoluteResolvers : Obligations.AbsoluteResolvers := by
  intro s flat
  have base := fetchWord_flat flat
  have indexed (index : Byte) :
      (eaIndexed s.fetchWord.1 index s.fetchWord.2).1.toNat = (s.fetchWord.1.toNat + index.toNat) % 65536 ∧
      { (eaIndexed s.fetchWord.1 index s.fetchWord.2).2 with trace := s.trace } = { s with
        pc := s.pc + 2,
        cycles := s.cycles + if s.cpcp = true ∧
          (s.fetchWord.1.toNat + index.toNat) % 65536 / 256 ≠ s.fetchWord.1.toNat / 256 then 1 else 0 } := by
    refine ⟨add_zext16_toNat _ index, ?_⟩
    rw [eaIndexed_state, fetchWord_state]
  simp only [← base]
  refine ⟨⟨rfl, ?_⟩, indexed s.x, indexed s.y⟩
  exact congrArg (fun u : State => { u with trace := s.trace }) (fetchWord_state s)

/-- Settles O42: two reads in the zero page, which leave all but the history. -/
theorem pointerIsAZeroPageWord : Obligations.PointerIsAZeroPageWord := fun _ z flat =>
  ⟨readPointer_flat z flat, rfl⟩

/-- Settles O37: the fetched word in numbers, then the two reads behind it; no row has IND. -/
theorem indirectResolver : Obligations.IndirectResolver := by
  intro s flat
  have ptr := fetchWord_flat flat
  simp only [← ptr]
  refine ⟨eaInd_flat s.fetchWord.1 (s := s.fetchWord.2) flat, ?_, fun op hr => ?_⟩
  · exact congrArg (fun u : State => { u with trace := s.trace }) (fetchWord_state s)
  · obtain ⟨row, mem, -, ind⟩ := decodeTable_resolver_cases hr
    exact rows_not_ind row mem ind

/-- Settles O38: the pointer is the fetched byte with X added in the zero page. -/
theorem indexedIndirectResolver : Obligations.IndexedIndirectResolver := by
  intro s flat
  have pointer := readPointer_flat (s.busByte s.pc + s.x) (s := (s.afterRead s.pc).advancePc) flat
  rw [BitVec.toNat_add] at pointer
  simp only [← State.busByte_flat flat s.pc]
  exact ⟨pointer, rfl⟩

/-- Settles O39: the pointer's word in numbers, then indexing in numbers. -/
theorem indirectIndexedResolver : Obligations.IndirectIndexedResolver := by
  intro s flat
  have base := readPointer_flat (s.busByte s.pc) (s := (s.afterRead s.pc).advancePc) flat
  have indexed := eaIndexed_state (readPointer (s.busByte s.pc) (s.afterRead s.pc).advancePc).1 s.y
    (readPointer (s.busByte s.pc) (s.afterRead s.pc).advancePc).2
  simp only [← State.busByte_flat flat s.pc]
  rw [State.advancePc_mem, State.afterRead_mem] at base
  simp only [← base]
  exact ⟨add_zext16_toNat _ s.y, congrArg (fun u : State => { u with trace := s.trace }) indexed⟩

/-- Settles O41: each resolver is its reads in order; the indexed forms' page test reads nothing. -/
theorem resolverReadsInOrder : Obligations.ResolverReadsInOrder := by
  intro s
  simp only [← ind_second]
  exact ⟨rfl, ⟨rfl, rfl⟩, ⟨rfl, pageCross_trace ..⟩, ⟨rfl, pageCross_trace ..⟩, ⟨rfl, rfl⟩, ⟨rfl, rfl⟩,
    ⟨rfl, pageCross_trace ..⟩⟩

end Sys2Proof.Machine
end

section
/-!
The statements about Reset and the harness, and about pairs of instructions: what the specs of the single
instructions give when one runs after the other.
-/

namespace Sys2Proof.Claims

open Sys2Proof.Machine Sys2Proof.Safety

/-! ### Reset (70_reset_and_hazards.md R270, R273) -/

/-- Settles O2: Reset's accesses are its two reads, and it writes neither cpcp nor the model's own fields. -/
theorem resetReadsHighByteFirst : Obligations.ResetReadsHighByteFirst := fun s =>
  ⟨rfl, (congrArg BitVec.toNat (resetCore_pc s)).trans (concat_toNat _ _), rfl, rfl, rfl⟩

theorem resetCore_pc_word {s : State} (flat : s.busKind = .flat) :
    (resetCore s).pc = concat (s.mem.read 0xFFFD) (s.mem.read 0xFFFC) := by
  rw [resetCore_pc, State.busByte_flat flat, State.busByte_flat (s := s.afterRead _) flat]
  rfl

/-- Over a flat bus Reset is told by the memory, cpcp and the record of faults, but for the history. -/
theorem resetCore_flat {s : State} (flat : s.busKind = .flat) :
    { resetCore s with trace := [] } = { State.reset with
      pc := concat (s.mem.read 0xFFFD) (s.mem.read 0xFFFC), cpcp := s.cpcp, busKind := s.busKind,
      mem := s.mem, trace := [], faults := s.faults } := by
  rw [← resetCore_pc_word flat]
  rfl

/-- Settles O3: no power-on register is left but cpcp, and the empty memory gives PC's two zero bytes. -/
theorem resetStateIsAReset : Obligations.ResetStateIsAReset := by
  intro a x y sp p pc cycles
  have word : (resetCore (construct a x y sp p pc cycles .flat [] [])).pc = 0x0000 := by
    rw [resetCore_pc]
    show concat 0x00 0x00 = 0x0000
    rfl
  exact congrArg State.reset.setPc word.symm

/-- Settles O4: both states are told by the same memory, cpcp and record of faults, which Reset keeps. -/
theorem resetIgnoresPriorRegisters : Obligations.ResetIgnoresPriorRegisters := by
  intro s t flat flat' mem cpcp faults
  have again := resetCore_flat (s := resetCore s) flat
  rw [resetCore_flat flat, resetCore_flat flat', mem, cpcp, faults, flat, flat']
  refine ⟨rfl, again.trans ?_⟩
  rw [← flat]
  rfl

/-! ### The harness (70_reset_and_hazards.md R285) -/

theorem hostWriteAll_append (ram ram' : List (Addr × Byte)) (s : State) :
    hostWriteAll (ram ++ ram') s = hostWriteAll ram' (hostWriteAll ram s) := by
  induction ram generalizing s with
  | nil => rfl
  | cons c rest ih => exact ih _

theorem hostWriteAll_cycles (ram : List (Addr × Byte)) (s : State) :
    (hostWriteAll ram s).cycles = s.cycles := by
  induction ram generalizing s with
  | nil => rfl
  | cons c rest ih => exact ih _

theorem hostWriteAll_busKind (ram : List (Addr × Byte)) (s : State) :
    (hostWriteAll ram s).busKind = s.busKind := by
  induction ram generalizing s with
  | nil => rfl
  | cons c rest ih => exact ih _

/-- An address that the host does not write reads as before. -/
theorem hostWriteAll_read_of_ne {ram : List (Addr × Byte)} {other : Addr} (s : State)
    (h : ∀ c ∈ ram, c.1 ≠ other) : (hostWriteAll ram s).mem.read other.toNat = s.mem.read other.toNat := by
  induction ram generalizing s with
  | nil => rfl
  | cons c rest ih =>
    rw [List.forall_mem_cons] at h
    obtain ⟨first, others⟩ := h
    exact (ih _ others).trans (State.read_memAfterWrite_of_ne s c.2 first.symm)

/-- Settles O60: Reset, then the writes in order, then the setters, each of which writes one register. -/
theorem harnessSeedsTheState : Obligations.HarnessSeedsTheState := by
  intro ram addr v pc a x y sp p s flat
  have writes : hostWriteAll (ram ++ [(addr, v)]) (resetCore s) =
      (hostWriteAll ram (resetCore s)).busWrite addr v := hostWriteAll_append ..
  have kind : (hostWriteAll ram (resetCore s)).busKind = .flat := (hostWriteAll_busKind ..).trans flat
  have stored : StoredAt addr v (hostWriteAll ram (resetCore s)) _ := busWrite_storedAt ..
  obtain ⟨last, -, others⟩ := stored
  simp only [harnessStart, writes]
  refine ⟨rfl, rfl, rfl, rfl, rfl, rfl, hostWriteAll_cycles .., last kind, fun other ne unwritten => ?_⟩
  exact (others other ne).trans (hostWriteAll_read_of_ne _ unwritten)

/-! ### A store and what follows it -/

/-- Settles O49: the load reads what the store left at the same address. -/
theorem storeThenLoadKeepsA : Obligations.StoreThenLoadKeepsA := by
  intro s base flat
  have store : StoreForm .a (.staAbs base) base s 4 s := .of_resolvesTo (.abs base s)
  obtain ⟨t, ht, ⟨stored, -, -⟩, kept, tp, ⟨-, -, kind, -⟩, -, tcycles, -⟩ := store
  have load : LoadForm .a (.ldaAbs base) base t 4 t := .of_resolvesTo (.abs base t)
  obtain ⟨u, hu, loaded, others, zn, -, -, -, ucycles, -⟩ := load
  have byte : t.busByte base = s.a := (State.busByte_flat (kind.trans flat) base).trans (stored flat)
  rw [byte] at loaded zn
  rw [tp] at zn
  refine ⟨t, u, ht, hu, loaded, zn, ?_, ?_, ?_⟩
  · exact (others .x (by decide)).trans (kept .x)
  · exact (others .y (by decide)).trans (kept .y)
  · rw [ucycles, tcycles, BitVec.add_assoc]
    rfl

/-- Settles O50: the store leaves PC, so the next Tick's opcode read gets the stored byte. -/
theorem nextFetchSeesTheStore : Obligations.NextFetchSeesTheStore := by
  intro s t flat ht
  have store : StoreForm .a (.staAbs s.pc) s.pc s 4 s := .of_resolvesTo (.abs s.pc s)
  obtain ⟨t', ht', ⟨stored, -, -⟩, -, -, ⟨-, pc, kind, -⟩, -⟩ := store
  rw [ht] at ht'
  cases ht'
  have byte : t.busByte t.pc = s.a := by
    rw [pc]
    exact (State.busByte_flat (kind.trans flat) s.pc).trans (stored flat)
  refine ⟨byte, fun empty => ?_, fun row hl => ?_⟩
  · rw [← byte] at empty ⊢
    exact ⟨_, step_of_empty empty⟩
  · rw [← byte] at hl
    obtain ⟨row', hl', hpc⟩ := step_next_pc (step_of_row hl)
    rw [hl] at hl'
    cases hl'
    exact ⟨_, step_of_row hl, pc ▸ hpc⟩

/-! ### ADC and SBC -/

/-- The borrow is the inverted carry, and -v is ~v + 1 modulo 2^8 (R182). -/
theorem sbcResult_eq_adcResult (a v : Byte) (c : Bool) : sbcResult a v c = adcResult a (~~~v) c := by
  have hv := v.isLt
  rw [← BitVec.toNat_inj, ← Int.natCast_inj, sbcResult_toNat, adcResult_toNat, sbcDiff, adcSum, BitVec.toNat_not]
  cases c <;> simp <;> omega

theorem sbcDiff_nonneg_iff (a v : Byte) (c : Bool) : 0 ≤ sbcDiff a v c ↔ 255 < adcSum a (~~~v) c := by
  have hv := v.isLt
  rw [sbcDiff, adcSum, BitVec.toNat_not]
  cases c <;> simp <;> omega

theorem sbcValue_eq_adcValue (v : Byte) (s : State) : sbcValue v s = adcValue (~~~v) s := by
  have sign : (s.a ^^^ v).getLsbD 7 = !(s.a ^^^ ~~~v).getLsbD 7 := by
    simp
  rw [sbcValue_eq_setResult, adcValue_eq_setResult, sbcResult_eq_adcResult, sign]
  simp only [sbcDiff_nonneg_iff]

/-- Settles O54: the two handlers are one and the same, and so are the two rules around them. -/
theorem sbcIsAdcOfComplement : Obligations.SbcIsAdcOfComplement := by
  intro s v
  show Host.Outcome.next (performDirect true (sbcValue v) 2 s) =
    .next (performDirect true (adcValue (~~~v)) 2 s)
  rw [performDirect, performDirect, sbcValue_eq_adcValue]

/-- Bit 7 is the sign. -/
theorem msb_toInt (v : Byte) :
    v.msb = false ∧ v.toNat < 128 ∧ v.toInt = v.toNat ∨
      v.msb = true ∧ 128 ≤ v.toNat ∧ v.toInt = v.toNat - 256 := by
  rw [BitVec.msb_eq_decide, BitVec.toInt_eq_toNat_cond]
  by_cases h : 128 ≤ v.toNat
  · exact .inr ⟨decide_eq_true h, h, if_neg (by omega)⟩
  · exact .inl ⟨decide_eq_false h, by omega, if_pos (by omega)⟩

theorem toInt_not_byte (v : Byte) : (~~~v).toInt = -1 - v.toInt := by
  have complement := BitVec.toNat_not (x := v)
  obtain ⟨-, _, hv⟩ | ⟨-, _, hv⟩ := msb_toInt v <;>
    obtain ⟨-, _, hn⟩ | ⟨-, _, hn⟩ := msb_toInt (~~~v) <;> omega

/-- V, by the signs of A, the operand and the result, is set iff the signed sum leaves the byte. -/
theorem adc_overflow_iff {a v r : Byte} {c : Nat} (hc : c ≤ 1)
    (hr : r.toNat = (a.toNat + v.toNat + c) % 256) :
    (!(a ^^^ v).getLsbD 7 && (a ^^^ r).getLsbD 7) = true ↔
      a.toInt + v.toInt + c < -128 ∨ 127 < a.toInt + v.toInt + c := by
  have ha := a.isLt
  have hv := v.isLt
  rw [← BitVec.msb_eq_getLsbD_last, ← BitVec.msb_eq_getLsbD_last, BitVec.msb_xor, BitVec.msb_xor]
  obtain ⟨sa, _, ia⟩ | ⟨sa, _, ia⟩ := msb_toInt a <;>
    obtain ⟨sv, _, iv⟩ | ⟨sv, _, iv⟩ := msb_toInt v <;>
      obtain ⟨sr, _, -⟩ | ⟨sr, _, -⟩ := msb_toInt r <;>
        simp [sa, sv, sr, ia, iv] <;> omega

theorem exec_adcImm_overflow {s t : State} {v : Byte} (h : exec (.adcImm v) s = .next t) :
    t.p.getLsbD 6 = true ↔ s.a.toInt + v.toInt + (s.p.getLsbD 0).toNat < -128 ∨
      127 < s.a.toInt + v.toInt + (s.p.getLsbD 0).toNat := by
  obtain ⟨u, hu, sum, ⟨-, -, overflow, -⟩, -⟩ :
      ∃ u, exec (.adcImm v) s = .next u ∧ Adds v s.trace 2 s u :=
    ⟨_, rfl, adcValue_adds v 2 (.refl _) (BitVec.add_zero _).symm⟩
  rw [h] at hu
  cases hu
  rw [overflow]
  exact adc_overflow_iff (Bool.toNat_le _) sum

/-- Settles O53: for ADC by the signs; SBC is ADC of the complement, whose signed value is -1 - v. -/
theorem overflowIsSignedOverflow : Obligations.OverflowIsSignedOverflow := by
  intro s t v
  refine ⟨exec_adcImm_overflow, fun h => ?_⟩
  rw [sbcIsAdcOfComplement] at h
  rw [exec_adcImm_overflow h, toInt_not_byte]
  omega

/-! ### Increment and decrement -/

theorem ZNof.trans {v w p q r : Byte} (h : ZNof v p q) (k : ZNof w q r) : ZNof w p r := by
  obtain ⟨-, -, rest⟩ := h
  obtain ⟨z, n, rest'⟩ := k
  exact ⟨z, n, fun i h1 h7 => (rest' i h1 h7).trans (rest i h1 h7)⟩

/-- A read-modify-write undone by a second one at the same address of a flat bus. -/
theorem ModifyForm.undo {f g : Byte → Byte} {i j : Instr} {base : Addr} {m n : Nat} {s : State}
    (flat : s.busKind = .flat) (hi : ModifyForm f i base m s) (hj : ∀ t, ModifyForm g j base n t)
    (undo : ∀ v, g (f v) = v) :
    ∃ t u, exec i s = .next t ∧ exec j t = .next u ∧ SameMemory s u ∧
      ZNof (s.mem.read base.toNat) s.p u.p ∧ ∀ r : Reg, r.get u = r.get s := by
  obtain ⟨t, ht, ⟨stored, -, others⟩, regs, zn, ⟨-, -, kind, -⟩, -⟩ := hi
  obtain ⟨u, hu, ⟨stored', -, others'⟩, regs', zn', -⟩ := hj t
  have flat' : t.busKind = .flat := kind.trans flat
  have byte : g (t.busByte base) = s.mem.read base.toNat := by
    rw [State.busByte_flat flat', stored flat, undo, State.busByte_flat flat]
  rw [byte] at stored' zn'
  refine ⟨t, u, ht, hu, fun addr => ?_, zn.trans zn', fun r => (regs' r).trans (regs r)⟩
  by_cases same : addr = base
  · rw [same, stored' flat']
  · rw [others' addr same, others addr same]

/-- A load of a value computed from its register, undone by a second one. -/
theorem Loads.undo {q : Reg} {f g : Byte → Byte} {i j : Instr} {s : State}
    (hi : ∃ t, exec i s = .next t ∧ Loads q (f (q.get s)) s.trace 2 s t)
    (hj : ∀ t, ∃ u, exec j t = .next u ∧ Loads q (g (q.get t)) t.trace 2 t u)
    (undo : ∀ v, g (f v) = v) :
    ∃ t u, exec i s = .next t ∧ exec j t = .next u ∧ q.get u = q.get s ∧ ZNof (q.get s) s.p u.p := by
  obtain ⟨t, ht, loaded, -, zn, -⟩ := hi
  obtain ⟨u, hu, loaded', -, zn', -⟩ := hj t
  rw [loaded, undo] at loaded' zn'
  exact ⟨t, u, ht, hu, loaded', zn.trans zn'⟩

/-- Settles O59: adding 1 and subtracting 1 undo each other, in memory and in X and Y. -/
theorem incrementAndDecrementUndo : Obligations.IncrementAndDecrementUndo := by
  intro s base flat
  have decInc : ∀ v : Byte, v - 1 + 1 = v := fun v => BitVec.sub_add_cancel v 1
  have incDec : ∀ v : Byte, v + 1 - 1 = v := fun v => BitVec.add_sub_cancel v 1
  have inc : ∀ t, ModifyForm (fun v => v + 1) (.incAbs base) base 6 t := fun t => .of_resolvesTo (.abs base t)
  have dec : ∀ t, ModifyForm (fun v => v - 1) (.decAbs base) base 6 t := fun t => .of_resolvesTo (.abs base t)
  exact ⟨(inc s).undo flat dec incDec, (dec s).undo flat inc decInc,
    Loads.undo (q := .x) (f := (· + 1)) (g := (· - 1)) (exec_immediate_loads (exec_inx s))
      (fun t => exec_immediate_loads (exec_dex t)) incDec,
    Loads.undo (q := .x) (f := (· - 1)) (g := (· + 1)) (exec_immediate_loads (exec_dex s))
      (fun t => exec_immediate_loads (exec_inx t)) decInc,
    Loads.undo (q := .y) (f := (· + 1)) (g := (· - 1)) (exec_immediate_loads (exec_iny s))
      (fun t => exec_immediate_loads (exec_dey t)) incDec,
    Loads.undo (q := .y) (f := (· - 1)) (g := (· + 1)) (exec_immediate_loads (exec_dey s))
      (fun t => exec_immediate_loads (exec_iny t)) decInc⟩

end Sys2Proof.Claims
end
